-- ==== Sys2Proof/Word.lean ====
section
/-! DEFINITION. The plain word types of the block. -/

namespace Sys2Proof

/-- One command word as it is written to `CMD` (30_encoding.md R70). -/
abbrev Word := BitVec 32

/-- One byte: a channel value, a wire byte, the shift register (10_state.md R21, R28). -/
abbrev Byte := BitVec 8

/-- The level of a line: `true` is high, written 1; `false` is low, written 0 (10_state.md R32). -/
abbrev Level := Bool

end Sys2Proof
end

