-- ==== Sys2Proof/Syntax.lean ====
section
/-! DEFINITION. The host command set as syntax: one constructor for every row of spec/opcode_table.json. -/

namespace Sys2Proof

/-- The target of a command, "resolved once at the API boundary" (00_scope.md R15, 30_encoding.md R73). -/
inductive Target where
  /-- Every pixel: `ALL = 1`. -/
  | all
  /-- `At(i)`: one pixel, named by a signed index that may be out of range (30_encoding.md R74). -/
  | one (i : Int)
  deriving DecidableEq, Repr

/-- A host command (30_encoding.md R77). An operand a command does not read is no part of it (R76). -/
inductive Instr where
  /-- TURN_ON, OPC 0x1 (42_commands.md R142). -/
  | turnOn (t : Target)
  /-- TURN_OFF, OPC 0x2 (R143). -/
  | turnOff (t : Target)
  /-- SET_BRIGHTNESS, OPC 0x3: `v` is a percent (R144). -/
  | setBrightness (t : Target) (v : Int) (push : Bool)
  /-- SET_RED, OPC 0x4: `v` is a channel value (R145). -/
  | setRed (t : Target) (v : Int) (push : Bool)
  /-- SET_GREEN, OPC 0x5 (R146). -/
  | setGreen (t : Target) (v : Int) (push : Bool)
  /-- SET_BLUE, OPC 0x6 (R147). -/
  | setBlue (t : Target) (v : Int) (push : Bool)
  /-- UPDATE_ALL, OPC 0x7 (R148). -/
  | updateAll
  /-- TEARDOWN, OPC 0xF (R149). -/
  | teardown
  /-- Reserved opcode 0x0 (30_encoding.md R78). -/
  | reserved0
  /-- Reserved opcode 0x8 (R78). -/
  | reserved8
  /-- Reserved opcode 0x9 (R78). -/
  | reserved9
  /-- Reserved opcode 0xA (R78). -/
  | reservedA
  /-- Reserved opcode 0xB (R78). -/
  | reservedB
  /-- Reserved opcode 0xC (R78). -/
  | reservedC
  /-- Reserved opcode 0xD (R78). -/
  | reservedD
  /-- Reserved opcode 0xE (R78). -/
  | reservedE
  deriving DecidableEq, Repr

end Sys2Proof
end

