-- ==== Sys2Proof/WellFormed.lean ====
section
/-! DEFINITION. Which terms of `Instr` a command word can stand for. -/

namespace Sys2Proof

/-- An index a signed 8-bit `IDX` field can name: -128..127 (30_encoding.md R74). -/
def Target.wf : Target → Bool
  | .all => true
  | .one i => decide (-128 ≤ i ∧ i ≤ 127)

/-- An operand a signed 16-bit `VALUE` field can name: -32768..32767 (30_encoding.md R75). -/
def valueWf (v : Int) : Bool :=
  decide (-32768 ≤ v ∧ v ≤ 32767)

/-- A command that some word encodes: its index fits `IDX` and its operand fits `VALUE`. Whether they are in
the range the command accepts is the machine's check, not the syntax's. -/
def Instr.wf : Instr → Bool
  | .turnOn t => t.wf
  | .turnOff t => t.wf
  | .setBrightness t v _ => t.wf && valueWf v
  | .setRed t v _ => t.wf && valueWf v
  | .setGreen t v _ => t.wf && valueWf v
  | .setBlue t v _ => t.wf && valueWf v
  | .updateAll => true
  | .teardown => true
  | .reserved0 => true
  | .reserved8 => true
  | .reserved9 => true
  | .reservedA => true
  | .reservedB => true
  | .reservedC => true
  | .reservedD => true
  | .reservedE => true

end Sys2Proof
end

