-- ==== Sys2Proof/Decode.lean ====
section
/-! DEFINITION. The command word: field extraction, the total decoder, then the encoder (30_encoding.md R70 to R80). -/

namespace Sys2Proof

/-- `OPC = CMD[31:28]` (30_encoding.md R70, R71). -/
def opcField (w : Word) : BitVec 4 := w.extractLsb' 28 4

/-- `PUSH = CMD[27]` (R70, R72). -/
def pushField (w : Word) : Bool := w.getLsbD 27

/-- `ALL = CMD[26]` (R70, R73). -/
def allField (w : Word) : Bool := w.getLsbD 26

/-- `sext_8(CMD[23:16])`, an integer in -128..127 (R70, R74). -/
def idxField (w : Word) : Int := (w.extractLsb' 16 8).toInt

/-- `sext_16(CMD[15:0])`, an integer in -32768..32767 (R70, R75). -/
def valueField (w : Word) : Int := (w.extractLsb' 0 16).toInt

/-- `target = (CMD[26] = 1) ? All : At(sext_8(CMD[23:16]))`; with `ALL = 1`, `IDX` is ignored (R73). -/
def targetField (w : Word) : Target :=
  if allField w then .all else .one (idxField w)

/-- The decoder. It needs only `OPC` to tell which command a word is and is total over all 2^32 words; reserved
opcodes are commands of their own (R71, R77, R78). Bits a command does not read are dropped (R76). -/
def decode (w : Word) : Instr :=
  match (opcField w).toNat with
  | 0x1 => .turnOn (targetField w)
  | 0x2 => .turnOff (targetField w)
  | 0x3 => .setBrightness (targetField w) (valueField w) (pushField w)
  | 0x4 => .setRed (targetField w) (valueField w) (pushField w)
  | 0x5 => .setGreen (targetField w) (valueField w) (pushField w)
  | 0x6 => .setBlue (targetField w) (valueField w) (pushField w)
  | 0x7 => .updateAll
  | 0x8 => .reserved8
  | 0x9 => .reserved9
  | 0xA => .reservedA
  | 0xB => .reservedB
  | 0xC => .reservedC
  | 0xD => .reservedD
  | 0xE => .reservedE
  | 0xF => .teardown
  | _ => .reserved0

/-- The opcode of a command (R77). -/
def Instr.opcode : Instr → BitVec 4
  | .turnOn _ => 0x1#4
  | .turnOff _ => 0x2#4
  | .setBrightness _ _ _ => 0x3#4
  | .setRed _ _ _ => 0x4#4
  | .setGreen _ _ _ => 0x5#4
  | .setBlue _ _ _ => 0x6#4
  | .updateAll => 0x7#4
  | .teardown => 0xF#4
  | .reserved0 => 0x0#4
  | .reserved8 => 0x8#4
  | .reserved9 => 0x9#4
  | .reservedA => 0xA#4
  | .reservedB => 0xB#4
  | .reservedC => 0xC#4
  | .reservedD => 0xD#4
  | .reservedE => 0xE#4

/-- The `ALL` bit of a target (R73). -/
def Target.allBit : Target → Bool
  | .all => true
  | .one _ => false

/-- The `IDX` field of a target; canonically 0 where it is ignored (R74, R76). -/
def Target.idxBits : Target → BitVec 8
  | .all => 0#8
  | .one i => BitVec.ofInt 8 i

/-- The fields at their places in the word, `RSV` canonically 0 (R70, R76). -/
def packWord (opc : BitVec 4) (push all : Bool) (idx : BitVec 8) (value : BitVec 16) : Word :=
  opc.setWidth 32 <<< 28 ||| (BitVec.ofBool push).setWidth 32 <<< 27 ||| (BitVec.ofBool all).setWidth 32 <<< 26 |||
    idx.setWidth 32 <<< 16 ||| value.setWidth 32

/-- The canonical word of a command: ignored bits are 0 (R76, R80). -/
def encode (i : Instr) : Word :=
  match i with
  | .turnOn t => packWord i.opcode false t.allBit t.idxBits 0#16
  | .turnOff t => packWord i.opcode false t.allBit t.idxBits 0#16
  | .setBrightness t v push => packWord i.opcode push t.allBit t.idxBits (BitVec.ofInt 16 v)
  | .setRed t v push => packWord i.opcode push t.allBit t.idxBits (BitVec.ofInt 16 v)
  | .setGreen t v push => packWord i.opcode push t.allBit t.idxBits (BitVec.ofInt 16 v)
  | .setBlue t v push => packWord i.opcode push t.allBit t.idxBits (BitVec.ofInt 16 v)
  | .updateAll => packWord i.opcode false false 0#8 0#16
  | .teardown => packWord i.opcode false false 0#8 0#16
  | .reserved0 => packWord i.opcode false false 0#8 0#16
  | .reserved8 => packWord i.opcode false false 0#8 0#16
  | .reserved9 => packWord i.opcode false false 0#8 0#16
  | .reservedA => packWord i.opcode false false 0#8 0#16
  | .reservedB => packWord i.opcode false false 0#8 0#16
  | .reservedC => packWord i.opcode false false 0#8 0#16
  | .reservedD => packWord i.opcode false false 0#8 0#16
  | .reservedE => packWord i.opcode false false 0#8 0#16

/-- The word whose bits are `w` as opcode_table.json numbers them: a command is one parallel 32-bit value, bit 0 the
least significant (R55, R70); bits above `nbits` are 0. -/
def tableWord (nbits w : Nat) : Word := BitVec.ofNat 32 (w % 2 ^ nbits)

/-- The command this decoder reads from a row's bits. Every word decodes (R71); a row wider than the one command
length is none of this block's (R79). -/
def decodeTableWord (nbits w : Nat) : Option Instr :=
  if nbits ≤ 32 then some (decode (tableWord nbits w)) else none

end Sys2Proof
end

