-- ==== Sys2Proof/Config.lean ====
section
/-! DEFINITION. What is fixed for one block: the pixel count, and the parameters the spec leaves OPEN as constants
without a value (00_scope.md R7, R8; 10_state.md R29). -/

namespace Sys2Proof

/-- The pixel count, "fixed at construction, never changes" (00_scope.md R7, 10_state.md R20). -/
abbrev Config.numPixels : Nat := 8

/-- `DATA_LINE_ID`: OPEN, no source names a number (00_scope.md R8, 92_eei_decisions.md D17; log 13). -/
opaque Config.dataLineId : Nat

/-- `CLOCK_LINE_ID`: OPEN, no source names a number (00_scope.md R8, 92_eei_decisions.md D17; log 13). -/
opaque Config.clockLineId : Nat

/-- `T_SETUP`: OPEN; no rule depends on it and nothing reads it (43_sequencer.md R185; log 22). -/
opaque Config.tSetup : Nat

/-- `T_HIGH`: OPEN; no rule depends on it and nothing reads it (43_sequencer.md R185; log 22). -/
opaque Config.tHigh : Nat

/-- `T_LOW`: OPEN; no rule depends on it and nothing reads it (43_sequencer.md R185; log 22). -/
opaque Config.tLow : Nat

/-- What `STATUS` reads before the first construction completes: undefined, so a free value
(10_state.md R29, 93_implementation_defined.md I9; log 6). -/
opaque Config.statusBeforeConstruction : BitVec 3

/-- The level a line shows before the block has ever acquired it: outside the block, so a free value
(10_state.md R33, 91_not_in_source.md N2; log 7). Applied to `true` for DAT, `false` for CLK. -/
opaque Config.levelBeforeAcquisition : Bool → Level

end Sys2Proof
end

