-- ==== Sys2Proof/Machine/Params.lean ====
section
/-! DEFINITION. The numeric literals of 00_scope.md R7, each in one place, so that a correction touches one definition
(00_scope.md R9, 93_implementation_defined.md I1; log 20). -/

namespace Sys2Proof.Machine

/-- `LOCK_PULSES` (00_scope.md R7, 43_sequencer.md R187). -/
def lockPulses : Nat := 36

/-- `UNLOCK_PULSES` (R7, R187). -/
def unlockPulses : Nat := 32

/-- `BRI_SCALE`: the multiplier in floor(31 × brightness) (R7). -/
def briScale : Nat := 31

/-- `CHAN_MAX` (R7). -/
def chanMax : Int := 255

/-- `PERCENT_MAX`: the host's brightness percent is divided by it (R7). -/
def percentMax : Int := 100

/-- `BITS_PER_BYTE` (R7). -/
def bitsPerByte : Nat := 8

/-- `MARKER` 0b111 in bits 7:5 of the header byte (R7, 30_encoding.md R82). -/
def markerBits : BitVec 8 := 0b11100000#8

/-- The mask of the 5-bit brightness code (R7 `BRI_BITS`, 30_encoding.md R83). -/
def briMask : BitVec 8 := 0b00011111#8

end Sys2Proof.Machine
end

