-- ==== Sys2Proof/Machine/Flags.lean ====
section
/-! DEFINITION. The status codes (60_exceptions.md R200) and which of them a pixel-level error becomes. The block has no
arithmetic flags (10_state.md R35). -/

namespace Sys2Proof.Machine

/-- Code 0, OK. -/
def Status.ok : BitVec 3 := 0#3
/-- Code 1, RANGE_ERROR (60_exceptions.md R201). -/
def Status.rangeError : BitVec 3 := 1#3
/-- Code 2, FORMAT_ERROR: no host command produces it (R202). -/
def Status.formatError : BitVec 3 := 2#3
/-- Code 3, INDEX_ERROR (R203). -/
def Status.indexError : BitVec 3 := 3#3
/-- Code 4, HW_ACQUISITION_ERROR: construction only (R204). -/
def Status.hwAcquisitionError : BitVec 3 := 4#3
/-- Code 5, ILLEGAL_COMMAND (R205). -/
def Status.illegalCommand : BitVec 3 := 5#3
/-- Code 6, NOT_READY (R206). -/
def Status.notReady : BitVec 3 := 6#3

/-- What a pixel-level operation raises (40_pixel_ops.md; 00_scope.md R13, R17). -/
inductive PixelError where
  /-- RangeError: "a channel or brightness value outside its declared domain" (R201). -/
  | range
  /-- FormatError: "malformed hex color string" (R202). -/
  | format
  deriving DecidableEq, Repr

/-- The status code a pixel-level error becomes for the command that called the operation (00_scope.md R17, R200). -/
def PixelError.status : PixelError → BitVec 3
  | .range => Status.rangeError
  | .format => Status.formatError

end Sys2Proof.Machine
end

