-- ==== Sys2Proof/Machine/Pixel.lean ====
section
/-! DEFINITION. The pixel register file and the pixel-level operations of 40_pixel_ops.md. -/

namespace Sys2Proof.Machine

/-- One entry `PIX[i]` (10_state.md R21). The channels are 8-bit integers; the brightness is an exact rational
(00_scope.md R12) whose legal range [0, 1] is an invariant (10_state.md R22). -/
structure Pixel where
  bri : Rat
  red : Byte
  green : Byte
  blue : Byte
  deriving DecidableEq, Repr

/-- The pixel register file `PIX`: exactly 8 entries in strip order (10_state.md R20). -/
abbrev PixelFile := Vector Pixel Config.numPixels

/-- The off pixel, (0, 0, 0, 0) (10_state.md R25). -/
def Pixel.off : Pixel := ⟨0, 0#8, 0#8, 0#8⟩

/-- The on pixel, (1, 255, 255, 255) (40_pixel_ops.md R106). -/
def Pixel.on : Pixel := ⟨1, 255#8, 255#8, 255#8⟩

/-- Every entry off: the reset value of `PIX` (10_state.md R25). -/
def PixelFile.off : PixelFile := Vector.replicate Config.numPixels Pixel.off

/-- A brightness in its declared domain (10_state.md R21). -/
def brightnessLegal (v : Rat) : Bool := decide (0 ≤ v ∧ v ≤ 1)

/-- A channel value in its declared domain (10_state.md R21). -/
def channelLegal (v : Int) : Bool := decide (0 ≤ v ∧ v ≤ chanMax)

/-- The value check of a brightness, before anything is written (40_pixel_ops.md R100). -/
def checkBrightness (v : Rat) : Except PixelError Rat :=
  if brightnessLegal v then .ok v else .error .range

/-- The value check of a channel, before anything is written (40_pixel_ops.md R101 to R103). -/
def checkChannel (v : Int) : Except PixelError Byte :=
  if channelLegal v then .ok (BitVec.ofInt 8 v) else .error .range

/-- `P.bri <- b`. -/
def Pixel.withBri (b : Rat) (p : Pixel) : Pixel := { p with bri := b }
/-- `P.red <- c`. -/
def Pixel.withRed (c : Byte) (p : Pixel) : Pixel := { p with red := c }
/-- `P.green <- c`. -/
def Pixel.withGreen (c : Byte) (p : Pixel) : Pixel := { p with green := c }
/-- `P.blue <- c`. -/
def Pixel.withBlue (c : Byte) (p : Pixel) : Pixel := { p with blue := c }

/-- `setBrightness(v)` in the internal unit (40_pixel_ops.md R100). -/
def Pixel.setBrightness (v : Rat) (p : Pixel) : Except PixelError Pixel :=
  match checkBrightness v with
  | .error e => .error e
  | .ok b => .ok (p.withBri b)

/-- `setRed(v)` (40_pixel_ops.md R101). -/
def Pixel.setRed (v : Int) (p : Pixel) : Except PixelError Pixel :=
  match checkChannel v with
  | .error e => .error e
  | .ok c => .ok (p.withRed c)

/-- `setGreen(v)` (40_pixel_ops.md R102). -/
def Pixel.setGreen (v : Int) (p : Pixel) : Except PixelError Pixel :=
  match checkChannel v with
  | .error e => .error e
  | .ok c => .ok (p.withGreen c)

/-- `setBlue(v)` (40_pixel_ops.md R103). -/
def Pixel.setBlue (v : Int) (p : Pixel) : Except PixelError Pixel :=
  match checkChannel v with
  | .error e => .error e
  | .ok c => .ok (p.withBlue c)

/-- `setRgb(r, g, b, bri)`: all four fields or none, one RangeError for any number of bad operands
(40_pixel_ops.md R104). -/
def Pixel.setRgb (r g b : Int) (bri : Rat) (_p : Pixel) : Except PixelError Pixel :=
  if channelLegal r && channelLegal g && channelLegal b && brightnessLegal bri then
    .ok ⟨bri, BitVec.ofInt 8 r, BitVec.ofInt 8 g, BitVec.ofInt 8 b⟩
  else .error .range

/-- `hexval(c)`, the value 0..15 of a hex digit of either case; none for any other character (40_pixel_ops.md R105). -/
def hexval (c : Char) : Option Nat :=
  let n := c.toNat
  if 48 ≤ n ∧ n ≤ 57 then some (n - 48)
  else if 97 ≤ n ∧ n ≤ 102 then some (n - 87)
  else if 65 ≤ n ∧ n ≤ 70 then some (n - 55)
  else none

/-- At most one prefix is removed, and `#` is tested before `0x` or `0X` (40_pixel_ops.md R105). -/
def stripHexPrefix : List Char → List Char
  | '#' :: t => t
  | '0' :: 'x' :: t => t
  | '0' :: 'X' :: t => t
  | t => t

/-- Two hex digits as one byte: `16 × hexval(a) + hexval(b)` (40_pixel_ops.md R105). -/
def hexByte (a b : Char) : Option Byte :=
  match hexval a, hexval b with
  | some x, some y => some (BitVec.ofNat 8 (16 * x + y))
  | _, _ => none

/-- Exactly six hex digits, as red, green and blue; none where the length or a character is wrong
(40_pixel_ops.md R105). -/
def parseHexDigits : List Char → Option (Byte × Byte × Byte)
  | [r1, r0, g1, g0, b1, b0] =>
    match hexByte r1 r0, hexByte g1 g0, hexByte b1 b0 with
    | some r, some g, some b => some (r, g, b)
    | _, _, _ => none
  | _ => none

/-- `setFromHex(s, bri)`: format before brightness, all four fields or none (40_pixel_ops.md R105, 60_exceptions.md R209).
The string is its list of characters (log 17). -/
def Pixel.setFromHex (s : List Char) (bri : Rat) (_p : Pixel) : Except PixelError Pixel :=
  match parseHexDigits (stripHexPrefix s) with
  | none => .error .format
  | some (r, g, b) => if brightnessLegal bri then .ok ⟨bri, r, g, b⟩ else .error .range

/-- `turnOn()` (40_pixel_ops.md R106). -/
def Pixel.turnOn (_p : Pixel) : Pixel := Pixel.on

/-- `turnOff()`: always zero, no earlier colour is restored (40_pixel_ops.md R107, 90_conflicts.md C1). -/
def Pixel.turnOff (_p : Pixel) : Pixel := Pixel.off

end Sys2Proof.Machine
end

