-- ==== Sys2Proof/Machine/Encoder.lean ====
section
/-! DEFINITION. The protocol encoder: a pure, stateless transform of the pixel register file (41_encoder.md). -/

namespace Sys2Proof.Machine

/-- The brightness code `q(bri) = floor(31 × bri) & 0b11111`, exact (41_encoder.md R121, 30_encoding.md R83). -/
def briCode (bri : Rat) : Byte := BitVec.ofInt 8 ((briScale : Rat) * bri).floor &&& briMask

/-- The header byte `0b11100000 | q` (30_encoding.md R82, 41_encoder.md R120). -/
def headerByte (bri : Rat) : Byte := markerBits ||| briCode bri

/-- `encPixel(P)`: header, blue, green, red (41_encoder.md R120, 20_memory.md R52). -/
def encPixel (p : Pixel) : Vector Byte 4 := #v[headerByte p.bri, p.blue, p.green, p.red]

/-- `bits(x)`, most significant first (41_encoder.md R122, 20_memory.md R54). -/
def byteBits (x : Byte) : List Bool :=
  [x.getLsbD 7, x.getLsbD 6, x.getLsbD 5, x.getLsbD 4, x.getLsbD 3, x.getLsbD 2, x.getLsbD 1, x.getLsbD 0]

/-- `frameBytes(PIX)`: the 32 pixel bytes, pixels in index order (41_encoder.md R123, 20_memory.md R53). -/
def frameBytes (pix : PixelFile) : Vector Byte 32 := (pix.map encPixel).flatten

/-- One part of the abstract frame: the markers are not bytes (41_encoder.md R123, 90_conflicts.md C3). -/
inductive FrameItem where
  | lock (n : Nat)
  | byte (b : Byte)
  | unlock (n : Nat)
  deriving DecidableEq, Repr

/-- `encFrame(PIX) = [LOCK(36)] ++ frameBytes(PIX) ++ [UNLOCK(32)]` (41_encoder.md R123). -/
def encFrame (pix : PixelFile) : List FrameItem :=
  .lock lockPulses :: ((frameBytes pix).toList.map .byte ++ [.unlock unlockPulses])

/-- `dataBits(PIX)`: the 256 data bits in the order they are sent (41_encoder.md R124). -/
def dataBits (pix : PixelFile) : List Bool := (frameBytes pix).toList.flatMap byteBits

end Sys2Proof.Machine
end

