-- ==== Sys2Proof/Machine/Lines.lean ====
section
/-! DEFINITION. The two output lines, their events, and the line writes of one push as a list (43_sequencer.md R170). -/

namespace Sys2Proof.Machine

/-- The two output lines (10_state.md R32). -/
inductive Line where
  | dat
  | clk
  deriving DecidableEq, Repr

/-- The fixed numeric ID of a line: OPEN (10_state.md R32, 00_scope.md R8; log 13). -/
def Line.id : Line → Nat
  | .dat => Config.dataLineId
  | .clk => Config.clockLineId

/-- One entry `(DAT, v)` or `(CLK, v)` of `TRACE` (10_state.md R34). -/
structure LineEvent where
  line : Line
  level : Level
  deriving DecidableEq, Repr

/-- `Pulse()`: `LineWrite(CLK, 1); LineWrite(CLK, 0)` (00_scope.md R14). -/
def pulseEvents : List LineEvent := [⟨.clk, true⟩, ⟨.clk, false⟩]

/-- `repeat n times: Pulse()` (43_sequencer.md R170). -/
def pulses : Nat → List LineEvent
  | 0 => []
  | n + 1 => pulseEvents ++ pulses n

/-- One bit-group: data, clock high, clock low (43_sequencer.md R173). -/
def bitEvents (b : Level) : List LineEvent := ⟨.dat, b⟩ :: pulseEvents

/-- `repeat n times: LineWrite(DAT, SHR[7]); LineWrite(CLK, 1); SHR <- (SHR << 1) mod 256; LineWrite(CLK, 0)`
(43_sequencer.md R170, R174). -/
def shiftOut : Nat → Byte → List LineEvent
  | 0, _ => []
  | n + 1, shr => bitEvents (shr.getLsbD 7) ++ shiftOut n (shr <<< 1)

/-- The bit-serialize part over a list of bytes (43_sequencer.md R170 part 2). -/
def serializeBytes (bytes : List Byte) : List LineEvent := bytes.flatMap (shiftOut bitsPerByte)

/-- The whole line-write sequence of one push of the bytes `snap` (43_sequencer.md R170). -/
def pushEvents (snap : Vector Byte 32) : List LineEvent :=
  ⟨.dat, false⟩ :: (pulses lockPulses ++ (serializeBytes snap.toList ++ pulses unlockPulses))

/-- The level of line `l` after the writes `es`, from level `v`: the last written value (10_state.md R33). -/
def levelAfter (l : Line) (es : List LineEvent) (v : Level) : Level :=
  es.foldl (fun u e => if e.line = l then e.level else u) v

end Sys2Proof.Machine
end

