-- ==== Sys2Proof/Machine/State.lean ====
section
/-! DEFINITION. The state of the block as plain data, its reset value, and the reasons a step can stop. -/

namespace Sys2Proof.Machine

/-- The lifecycle of the block (10_state.md R27). -/
inductive Life where
  /-- UNINIT: no construction has run yet. -/
  | uninit
  /-- READY: both lines are held and commands are accepted. -/
  | ready
  /-- FAILED: construction failed and no line is held. -/
  | failed
  /-- RELEASED: teardown has completed and no line is held. -/
  | released
  deriving DecidableEq, Repr

/-- `PHASE`, the current part of the push (10_state.md R28). -/
inductive Phase where
  | idle
  | lock
  | data
  | unlock
  deriving DecidableEq, Repr

/-- `SUB`, the next micro-step inside one bit or pulse (10_state.md R28). -/
inductive Sub where
  | setd
  | clkh
  | clkl
  deriving DecidableEq, Repr

/-- The model's own: whose pseudo-code the running push belongs to, hence what follows its last write (log 10). -/
inductive Job where
  /-- A TURN_*, SET_* or UPDATE_ALL command: `STATUS <- OK` follows (42_commands.md R142 to R148). -/
  | command
  /-- TEARDOWN: release of both lines follows (R149). -/
  | teardown
  /-- Construction: `LIFE <- READY` follows (70_reset_and_hazards.md R230). -/
  | construct
  deriving DecidableEq, Repr

/-- A call on a line's sink other than a level write: acquire (with the platform's answer), set output mode, release
(60_exceptions.md R215; log 11). -/
inductive SinkCall where
  | acquire (l : Line) (granted : Bool)
  | setOutput (l : Line)
  | release (l : Line)
  deriving DecidableEq, Repr

/-- What the platform contributes to one construction: its answers to the two acquisitions and the draws `INIT_DAT`,
`INIT_CLK` (00_scope.md R8, 70_reset_and_hazards.md R230; log 5). -/
structure Platform where
  grantDat : Bool
  grantClk : Bool
  initDat : Level
  initClk : Level
  deriving DecidableEq, Repr

/-- What the outside world does next (log 4). -/
inductive Turn where
  /-- Caller `k` presents its next word to `CMD`; while BUSY = 1 it waits (70_reset_and_hazards.md R241). -/
  | caller (k : Nat)
  /-- A host waits until BUSY = 0 (R234). -/
  | awaitIdle
  /-- `CONSTRUCT` is asserted (R230, R231). -/
  | construct (p : Platform)
  /-- Another agent writes a line (60_exceptions.md R213, 70_reset_and_hazards.md R240). -/
  | foreignWrite (l : Line) (v : Level)
  deriving DecidableEq, Repr

/-- The model's own: what one step is. A command run as one step and a push run one line write at a time are equivalent
views of the block (92_eei_decisions.md D29; log 1). -/
inductive Grain where
  /-- One step runs a whole command or construction. -/
  | command
  /-- One step accepts a command or construction, or makes one line write of the running push. -/
  | lineWrite
  deriving DecidableEq, Repr

/-- The state of the machine; INVENTORY.md lists each field's rule and reset value. -/
structure State where
  /-- `PIX` (10_state.md R20). -/
  pix : PixelFile
  /-- `LIFE` (R27). -/
  life : Life
  /-- `STATUS`, 3 bits (R29). -/
  status : BitVec 3
  /-- `BUSY` (R30). -/
  busy : Bool
  /-- `PHASE` (R28). -/
  phase : Phase
  /-- `CNT`: pulses still to emit (R28). -/
  cnt : Nat
  /-- `PIXI`: pixel being serialised (R28). -/
  pixi : Fin 8
  /-- `BYTI`: byte of the pixel (R28). -/
  byti : Fin 4
  /-- `BITI`: bits of the byte already sent (R28). -/
  biti : Fin 8
  /-- `SHR`: the byte being serialised (R28). -/
  shr : Byte
  /-- `SUB` (R28). -/
  sub : Sub
  /-- `SNAP`: the 32 bytes of the frame being sent (R28). -/
  snap : Vector Byte 32
  /-- Level of the data line (R32, R33). -/
  dat : Level
  /-- Level of the clock line (R32, R33). -/
  clk : Level
  /-- `OWN_DAT` (R33). -/
  ownDat : Bool
  /-- `OWN_CLK` (R33). -/
  ownClk : Bool
  /-- `TRACE`, oldest event first (R34). -/
  trace : List LineEvent
  /-- The model's own: the running push's job (log 10). -/
  job : Option Job
  /-- The model's own: the calls on the line sinks, oldest first (60_exceptions.md R215; log 11). -/
  sinkCalls : List SinkCall
  /-- Each host caller's words still to be submitted, next first, one queue a caller: `HOSTS` queues (00_scope.md R8, R10;
  the queues are the model's own: log 4, log 25). -/
  callers : List (List Word)
  /-- The model's own: what the outside world does, next first (log 4). -/
  turns : List Turn
  /-- The model's own: what one step is (log 1). -/
  grain : Grain
  deriving DecidableEq, Repr

/-- `HOSTS`, the number of host callers (00_scope.md R8): an argument of the initial state, which no step changes and the
invariant keeps at least 1 (log 25). -/
def State.hosts (s : State) : Nat := s.callers.length

/-- The machine right after reset with `hosts` host callers: the state a successful construction leaves (10_state.md R36),
nothing waiting outside (log 2). The hidden sequencer registers stand as the construction push left them (43_sequencer.md
R177; log 3). -/
def State.resetFor (hosts : Nat) : State where
  pix := PixelFile.off
  life := .ready
  status := Status.ok
  busy := false
  phase := .idle
  cnt := 0
  pixi := 7
  byti := 3
  biti := 0
  shr := 0#8
  sub := .clkl
  snap := frameBytes PixelFile.off
  dat := false
  clk := false
  ownDat := true
  ownClk := true
  trace := pushEvents (frameBytes PixelFile.off)
  job := none
  sinkCalls := [.acquire .dat true, .acquire .clk true, .setOutput .dat, .setOutput .clk]
  callers := List.replicate hosts []
  turns := []
  grain := .command

/-- The machine right after reset, with the fewest host callers: one (00_scope.md R8; log 25). -/
def State.reset : State := State.resetFor 1

/-- Power-on with `hosts` host callers, before any construction (10_state.md R27 UNINIT, R29 STATUS undefined, R30, R33, R34). `PIX` and the hidden
registers hold the values construction will give them before its push; no rule reads them earlier (log 7). -/
def State.powerOnFor (hosts : Nat) : State where
  pix := PixelFile.off
  life := .uninit
  status := Config.statusBeforeConstruction
  busy := false
  phase := .idle
  cnt := 0
  pixi := 0
  byti := 0
  biti := 0
  shr := 0#8
  sub := .setd
  snap := Vector.replicate 32 0#8
  dat := Config.levelBeforeAcquisition true
  clk := Config.levelBeforeAcquisition false
  ownDat := false
  ownClk := false
  trace := []
  job := none
  sinkCalls := []
  callers := List.replicate hosts []
  turns := []
  grain := .command

/-- Power-on, with one host caller (00_scope.md R8; log 25). -/
def State.powerOn : State := State.powerOnFor 1

/-- Why the machine stops with a fault. -/
inductive Fault where
  /-- Raised by a step while BUSY = 1 in a PHASE and SUB for which 43_sequencer.md R177 has no row (IDLE, or UNLOCK with
  SETD); no run reaches one (log 16). Safe: the model stops. -/
  | sequencerHasNoRow
  deriving DecidableEq, Repr

/-- Why a step is refused. -/
inductive Refusal where
  /-- Raised by an arm of `exec` for a command that has no meaning yet; none is left. Safe. -/
  | notModelled (mnemonic : String)
  /-- Raised by a step when CONSTRUCT is asserted while LIFE = READY (70_reset_and_hazards.md R231). Safe: the spec says a
  model refuses it. -/
  | constructWhileReady
  /-- Raised by a step when CONSTRUCT is asserted while BUSY = 1 (70_reset_and_hazards.md R231). Safe: as above. -/
  | constructWhileBusy
  /-- Raised by a step when another agent writes a line the block owns (70_reset_and_hazards.md R240). Safe: the spec says
  a model refuses it. -/
  | foreignLineWrite
  deriving DecidableEq, Repr

/-- The outcome of one step of this machine. -/
abbrev Result := Host.Outcome State Fault Refusal

end Sys2Proof.Machine
end

