-- ==== Sys2Proof/Machine/Operands.lean ====
section
/-! DEFINITION. The operand forms of the commands: the target (00_scope.md R15, 42_commands.md R141, R150), the channel
operand and the percent operand (30_encoding.md R75). -/

namespace Sys2Proof.Machine

/-- A target that names a pixel: `All`, or `At(i)` with i in 0..7 (20_memory.md R51, 42_commands.md R141). -/
def targetLegal : Target → Bool
  | .all => true
  | .one i => decide (0 ≤ i ∧ i < (Config.numPixels : Int))

/-- `j` is one of `pixels(t)` (00_scope.md R15). -/
def targetCovers (t : Target) (j : Nat) : Bool :=
  match t with
  | .all => true
  | .one i => decide (i = (j : Int))

/-- `for j in pixels(t): PIX[j] <- f PIX[j]`; no other entry changes (40_pixel_ops.md R108, 42_commands.md R150). -/
def PixelFile.update (t : Target) (f : Pixel → Pixel) (pix : PixelFile) : PixelFile :=
  pix.mapIdx fun j p => if targetCovers t j then f p else p

/-- The host percent in the internal unit: the exact rational v/100 (30_encoding.md R75, 42_commands.md R144). -/
def percentToBrightness (v : Int) : Rat := (v : Rat) / (percentMax : Rat)

/-- SET_BRIGHTNESS's operand: convert, then validate; what it writes (42_commands.md R144). -/
def brightnessWriter (v : Int) : Except PixelError (Pixel → Pixel) :=
  match checkBrightness (percentToBrightness v) with
  | .error e => .error e
  | .ok b => .ok (Pixel.withBri b)

/-- SET_RED's operand: validate; what it writes (42_commands.md R145). -/
def redWriter (v : Int) : Except PixelError (Pixel → Pixel) :=
  match checkChannel v with
  | .error e => .error e
  | .ok c => .ok (Pixel.withRed c)

/-- SET_GREEN's operand (42_commands.md R146). -/
def greenWriter (v : Int) : Except PixelError (Pixel → Pixel) :=
  match checkChannel v with
  | .error e => .error e
  | .ok c => .ok (Pixel.withGreen c)

/-- SET_BLUE's operand (42_commands.md R147). -/
def blueWriter (v : Int) : Except PixelError (Pixel → Pixel) :=
  match checkChannel v with
  | .error e => .error e
  | .ok c => .ok (Pixel.withBlue c)

end Sys2Proof.Machine
end

