-- ==== Sys2Proof/Machine/Ops.lean ====
section
/-! DEFINITION. The named operations every command is built from: line writes, the push, the end of a command with a status
code, acceptance and target check. -/

namespace Sys2Proof.Machine

/-- `LineWrite(l, v)`: set the level and append the event; unconditional, it cannot fail (00_scope.md R14,
43_sequencer.md R186). -/
def lineWrite (l : Line) (v : Level) (s : State) : State :=
  match l with
  | .dat => { s with dat := v, trace := s.trace ++ [⟨.dat, v⟩] }
  | .clk => { s with clk := v, trace := s.trace ++ [⟨.clk, v⟩] }

/-- A run of line writes in order, as one update (Sys2Proof.Laws.lineWrites_cons: it is `lineWrite` after `lineWrite`). -/
def lineWrites (es : List LineEvent) (s : State) : State :=
  { s with
    dat := levelAfter .dat es s.dat
    clk := levelAfter .clk es s.clk
    trace := s.trace ++ es }

/-- The error entry of the block, one operation: the command ends, `STATUS` receives the code and `BUSY` returns to 0.
It is no trap: nothing is saved, no mode changes, control goes nowhere, so there is no return either
(60_exceptions.md R207, R210, R211). -/
def reject (code : BitVec 3) (s : State) : State :=
  { s with status := code, busy := false }

/-- `STATUS <- OK` and `BUSY <- 0` of a command that made no push (42_commands.md R140, R144). -/
def succeed (s : State) : State :=
  { s with status := Status.ok, busy := false }

/-- The start row of a push: `SNAP <- frameBytes(PIX); CNT <- 36; PHASE <- LOCK; SUB <- SETD`, no write
(43_sequencer.md R171, R177). -/
def startPush (job : Job) (s : State) : State :=
  { s with
    snap := frameBytes s.pix
    cnt := lockPulses
    phase := .lock
    sub := .setd
    job := some job }

/-- The whole rest of a push just started, as one update: all the writes of R170, then the hidden registers as the last row
of R177 leaves them (43_sequencer.md R170, R177; log 3). -/
def runPush (s : State) : State :=
  { lineWrites (pushEvents s.snap) s with
    phase := .idle
    cnt := 0
    pixi := 7
    byti := 3
    biti := 0
    shr := 0#8
    sub := .clkl }

/-- What follows the last write of a push in the pseudo-code that started it (42_commands.md R142 to R149,
70_reset_and_hazards.md R230). R149 gives no order between TEARDOWN's two releases: that they are recorded data first is a
DESIGN CHOICE (log 11). -/
def finish (s : State) : State :=
  match s.job with
  | none => s
  | some .command => { s with status := Status.ok, busy := false, job := none }
  | some .teardown =>
    { s with
      ownDat := false
      ownClk := false
      sinkCalls := s.sinkCalls ++ [.release .dat, .release .clk]
      life := .released
      status := Status.ok
      busy := false
      job := none }
  | some .construct => { s with life := .ready, status := Status.ok, busy := false, job := none }

/-- Run the push just started, if there is one, and end its command: nothing else runs between the writes of a command
(00_scope.md R14, 20_memory.md R61). -/
def complete (s : State) : State :=
  if s.busy then finish (runPush s) else s

/-- Acceptance: `BUSY <- 1`, then the lifecycle check, first of all checks (42_commands.md R140, 60_exceptions.md R206). -/
def accept (body : State → State) (s : State) : State :=
  let s1 := { s with busy := true }
  if s1.life = .ready then body s1 else reject Status.notReady s1

/-- The target check: an index error ends the command before any operand check or write (42_commands.md R141). -/
def withTarget (t : Target) (body : State → State) (s : State) : State :=
  if targetLegal t then body s else reject Status.indexError s

/-- Write the targeted pixels (42_commands.md R150). -/
def updatePixels (t : Target) (f : Pixel → Pixel) (s : State) : State :=
  { s with pix := s.pix.update t f }

/-- The common part of the four SET_* commands after the target check: the operand's check, the write of every targeted
pixel, then the push if `PUSH = 1` (42_commands.md R144 to R147). -/
def setField (writer : Except PixelError (Pixel → Pixel)) (t : Target) (push : Bool) (s : State) : State :=
  match writer with
  | .error e => reject e.status s
  | .ok f =>
    if push then startPush .command (updatePixels t f s) else succeed (updatePixels t f s)

/-- A command as one step: a word is accepted only while BUSY = 0, and one that is not accepted changes nothing
(42_commands.md R140, 70_reset_and_hazards.md R241; log 8). `start` is the command up to the start of its push. -/
def runCommand (start : State → State) (s : State) : Result :=
  if s.busy then .next s else .next (complete (start s))

end Sys2Proof.Machine
end

