-- ==== Sys2Proof/Machine/Construct.lean ====
section
/-! DEFINITION. Construction, the reset input of the block (70_reset_and_hazards.md R230, R231). -/

namespace Sys2Proof.Machine

/-- The first lines of R230: `BUSY <- 1`, every pixel off, the sequencer registers at their reset values. -/
def clearForConstruct (s : State) : State :=
  { s with
    busy := true
    pix := PixelFile.off
    phase := .idle
    cnt := 0
    pixi := 0
    byti := 0
    biti := 0
    shr := 0#8
    sub := .setd
    snap := Vector.replicate 32 0#8
    job := none }

/-- `STATUS <- HW_ACQUISITION_ERROR; LIFE <- FAILED; BUSY <- 0` (R230, 60_exceptions.md R204). -/
def failConstruct (calls : List SinkCall) (s : State) : State :=
  { reject Status.hwAcquisitionError s with life := .failed, sinkCalls := s.sinkCalls ++ calls }

/-- Both lines granted: output mode, ownership, the draws as levels with no trace event (R230, 10_state.md R33). R230 gives
the order of the two acquisitions, data first. It gives none between the two set-output calls: that they are recorded data
first is a DESIGN CHOICE (log 11). -/
def takeLines (p : Platform) (s : State) : State :=
  { s with
    ownDat := true
    ownClk := true
    dat := p.initDat
    clk := p.initClk
    sinkCalls := s.sinkCalls ++ [.acquire .dat true, .acquire .clk true, .setOutput .dat, .setOutput .clk] }

/-- Construction up to its failure or the start of its push: the data line is requested first, and released again if the
clock line is refused (70_reset_and_hazards.md R230). -/
def beginConstruct (p : Platform) (s : State) : State :=
  let s1 := clearForConstruct s
  if p.grantDat = false then failConstruct [.acquire .dat false] s1
  else if p.grantClk = false then failConstruct [.acquire .dat true, .acquire .clk false, .release .dat] s1
  else startPush .construct (takeLines p s1)

/-- Construction as one step (70_reset_and_hazards.md R230). -/
def runConstruct (p : Platform) (s : State) : State := complete (beginConstruct p s)

/-- `CONSTRUCT` asserted while BUSY = 0: refused in READY, where it has no meaning (R231); else construction, as one step or
up to the start of its push (log 1). -/
def takeConstruct (p : Platform) (s : State) : Result :=
  match s.life, s.grain with
  | .ready, _ => .refused .constructWhileReady
  | _, .command => .next (runConstruct p s)
  | _, .lineWrite => .next (beginConstruct p s)

end Sys2Proof.Machine
end

