-- ==== Sys2Proof/Machine/Frame.lean ====
section
/-! DEFINITION. UPDATE_ALL and TEARDOWN (42_commands.md R148, R149). -/

namespace Sys2Proof.Machine

/-- UPDATE_ALL up to the start of its push (42_commands.md R148). -/
def beginUpdateAll : State → State := accept (startPush .command)

/-- UPDATE_ALL: a push of the pixels as they stand (42_commands.md R148). -/
def execUpdateAll (s : State) : Result := runCommand beginUpdateAll s

/-- TEARDOWN up to the start of its push: every pixel off, then the full push (42_commands.md R149, 90_conflicts.md C2). -/
def beginTeardown : State → State :=
  accept fun s => startPush .teardown (updatePixels .all Pixel.turnOff s)

/-- TEARDOWN: all off, push, release both lines, RELEASED (42_commands.md R149). -/
def execTeardown (s : State) : Result := runCommand beginTeardown s

end Sys2Proof.Machine
end

