-- ==== Sys2Proof/Machine/Reserved.lean ====
section
/-! DEFINITION. The eight reserved opcodes: each completes with ILLEGAL_COMMAND and no other effect
(30_encoding.md R78, 60_exceptions.md R205). -/

namespace Sys2Proof.Machine

/-- A reserved opcode, accepted: the opcode check comes right after the lifecycle check (42_commands.md R140). -/
def beginIllegal : State → State := accept (reject Status.illegalCommand)

/-- Reserved opcode 0x0 (30_encoding.md R78). -/
def execReserved0 (s : State) : Result := runCommand beginIllegal s

/-- Reserved opcode 0x8 (30_encoding.md R78). -/
def execReserved8 (s : State) : Result := runCommand beginIllegal s

/-- Reserved opcode 0x9 (30_encoding.md R78). -/
def execReserved9 (s : State) : Result := runCommand beginIllegal s

/-- Reserved opcode 0xA (30_encoding.md R78). -/
def execReservedA (s : State) : Result := runCommand beginIllegal s

/-- Reserved opcode 0xB (30_encoding.md R78). -/
def execReservedB (s : State) : Result := runCommand beginIllegal s

/-- Reserved opcode 0xC (30_encoding.md R78). -/
def execReservedC (s : State) : Result := runCommand beginIllegal s

/-- Reserved opcode 0xD (30_encoding.md R78). -/
def execReservedD (s : State) : Result := runCommand beginIllegal s

/-- Reserved opcode 0xE (30_encoding.md R78). -/
def execReservedE (s : State) : Result := runCommand beginIllegal s

end Sys2Proof.Machine
end

