-- ==== Sys2Proof/Machine/SetField.lean ====
section
/-! DEFINITION. SET_BRIGHTNESS, SET_RED, SET_GREEN and SET_BLUE (42_commands.md R144 to R147). -/

namespace Sys2Proof.Machine

/-- SET_BRIGHTNESS up to its end or the start of its push (42_commands.md R144). -/
def beginSetBrightness (t : Target) (v : Int) (push : Bool) : State → State :=
  accept (withTarget t (setField (brightnessWriter v) t push))

/-- SET_BRIGHTNESS (42_commands.md R144). -/
def execSetBrightness (t : Target) (v : Int) (push : Bool) (s : State) : Result :=
  runCommand (beginSetBrightness t v push) s

/-- SET_RED up to its end or the start of its push (42_commands.md R145). -/
def beginSetRed (t : Target) (v : Int) (push : Bool) : State → State :=
  accept (withTarget t (setField (redWriter v) t push))

/-- SET_RED (42_commands.md R145). -/
def execSetRed (t : Target) (v : Int) (push : Bool) (s : State) : Result :=
  runCommand (beginSetRed t v push) s

/-- SET_GREEN up to its end or the start of its push (42_commands.md R146). -/
def beginSetGreen (t : Target) (v : Int) (push : Bool) : State → State :=
  accept (withTarget t (setField (greenWriter v) t push))

/-- SET_GREEN (42_commands.md R146). -/
def execSetGreen (t : Target) (v : Int) (push : Bool) (s : State) : Result :=
  runCommand (beginSetGreen t v push) s

/-- SET_BLUE up to its end or the start of its push (42_commands.md R147). -/
def beginSetBlue (t : Target) (v : Int) (push : Bool) : State → State :=
  accept (withTarget t (setField (blueWriter v) t push))

/-- SET_BLUE (42_commands.md R147). -/
def execSetBlue (t : Target) (v : Int) (push : Bool) (s : State) : Result :=
  runCommand (beginSetBlue t v push) s

end Sys2Proof.Machine
end

