-- ==== Sys2Proof/Machine/Switch.lean ====
section
/-! DEFINITION. TURN_ON and TURN_OFF (42_commands.md R142, R143). -/

namespace Sys2Proof.Machine

/-- TURN_ON up to the start of its push (42_commands.md R142). -/
def beginTurnOn (t : Target) : State → State :=
  accept (withTarget t fun s => startPush .command (updatePixels t Pixel.turnOn s))

/-- TURN_ON: every targeted pixel on, then always a push (42_commands.md R142). -/
def execTurnOn (t : Target) (s : State) : Result := runCommand (beginTurnOn t) s

/-- TURN_OFF up to the start of its push (42_commands.md R143). -/
def beginTurnOff (t : Target) : State → State :=
  accept (withTarget t fun s => startPush .command (updatePixels t Pixel.turnOff s))

/-- TURN_OFF: every targeted pixel off, then always a push (42_commands.md R143). -/
def execTurnOff (t : Target) (s : State) : Result := runCommand (beginTurnOff t) s

end Sys2Proof.Machine
end

