-- ==== Sys2Proof/Machine/Dispatch.lean ====
section
/-! DEFINITION. One arm per command: the meaning of each (42_commands.md R142 to R149, 30_encoding.md R78). -/

namespace Sys2Proof.Machine

def exec (i : Instr) (s : State) : Host.Outcome State Fault Refusal :=
  match i with
  | .turnOn t => Sys2Proof.Machine.execTurnOn t s
  | .turnOff t => Sys2Proof.Machine.execTurnOff t s
  | .setBrightness t v push => Sys2Proof.Machine.execSetBrightness t v push s
  | .setRed t v push => Sys2Proof.Machine.execSetRed t v push s
  | .setGreen t v push => Sys2Proof.Machine.execSetGreen t v push s
  | .setBlue t v push => Sys2Proof.Machine.execSetBlue t v push s
  | .updateAll => Sys2Proof.Machine.execUpdateAll s
  | .teardown => Sys2Proof.Machine.execTeardown s
  | .reserved0 => Sys2Proof.Machine.execReserved0 s
  | .reserved8 => Sys2Proof.Machine.execReserved8 s
  | .reserved9 => Sys2Proof.Machine.execReserved9 s
  | .reservedA => Sys2Proof.Machine.execReservedA s
  | .reservedB => Sys2Proof.Machine.execReservedB s
  | .reservedC => Sys2Proof.Machine.execReservedC s
  | .reservedD => Sys2Proof.Machine.execReservedD s
  | .reservedE => Sys2Proof.Machine.execReservedE s

end Sys2Proof.Machine
end

