-- ==== Sys2Proof/Machine/Sequencer.lean ====
section
/-! DEFINITION. The micro-step machine of the sequencer: one line write a step (43_sequencer.md R177). -/

namespace Sys2Proof.Machine

/-- Begin to serialise byte `j` of `SNAP`: `PIXI <- j div 4`, `BYTI <- j mod 4`, `BITI <- 0`, `SHR <- SNAP[j]`,
`PHASE <- DATA`, `SUB <- SETD` (43_sequencer.md R177). -/
def loadByte (j : Fin 32) (s : State) : State :=
  { s with
    phase := .data
    pixi := ⟨j.val / 4, by omega⟩
    byti := ⟨j.val % 4, by omega⟩
    biti := 0
    shr := s.snap[j.val]
    sub := .setd }

/-- The last sub-step of a lock pulse: `(CLK, 0)`, `CNT <- CNT - 1`, then the next pulse or the data phase (R177). -/
def lockPulseEnd (s : State) : State :=
  let s1 := { lineWrite .clk false s with cnt := s.cnt - 1 }
  if s1.cnt = 0 then loadByte 0 s1 else { s1 with sub := .clkh }

/-- The last sub-step of a bit-group: `(CLK, 0)`, then the next bit, the next byte or the unlock phase (R177). -/
def bitGroupEnd (s : State) : State :=
  let s1 := lineWrite .clk false s
  if hb : s.biti.val + 1 < 8 then { s1 with biti := ⟨s.biti.val + 1, hb⟩, sub := .setd }
  else if hj : 4 * s.pixi.val + s.byti.val + 1 < 32 then loadByte ⟨4 * s.pixi.val + s.byti.val + 1, hj⟩ s1
  else { s1 with biti := 0, phase := .unlock, cnt := unlockPulses, sub := .clkh }

/-- The last sub-step of an unlock pulse: `(CLK, 0)`, `CNT <- CNT - 1`, then the next pulse or IDLE, push complete (R177). -/
def unlockPulseEnd (s : State) : State :=
  let s1 := { lineWrite .clk false s with cnt := s.cnt - 1 }
  if s1.cnt = 0 then { s1 with phase := .idle } else { s1 with sub := .clkh }

/-- One row of the table of 43_sequencer.md R177 after the start row; none where the table has no row. -/
def seqStep (s : State) : Option State :=
  match s.phase, s.sub with
  | .lock, .setd => some { lineWrite .dat false s with sub := .clkh }
  | .lock, .clkh => some { lineWrite .clk true s with sub := .clkl }
  | .lock, .clkl => some (lockPulseEnd s)
  | .data, .setd => some { lineWrite .dat (s.shr.getLsbD 7) s with sub := .clkh }
  | .data, .clkh => some { lineWrite .clk true s with shr := s.shr <<< 1, sub := .clkl }
  | .data, .clkl => some (bitGroupEnd s)
  | .unlock, .clkh => some { lineWrite .clk true s with sub := .clkl }
  | .unlock, .clkl => some (unlockPulseEnd s)
  | .unlock, .setd => none
  | .idle, _ => none

/-- Advance the running push by one line write; its last write also ends the command (42_commands.md R140,
43_sequencer.md R183; log 10). -/
def advancePush (s : State) : Result :=
  match seqStep s with
  | none => .fault .sequencerHasNoRow
  | some s1 => if s1.phase = .idle then .next (finish s1) else .next s1

end Sys2Proof.Machine
end

