-- ==== Sys2Proof/Machine/Turns.lean ====
section
/-! DEFINITION. The host interface: what one turn of the outside world does, and what it does while the block is busy
(10_state.md R31, 42_commands.md R140, 70_reset_and_hazards.md R230, R231, R240, R241). -/

namespace Sys2Proof.Machine

/-- A command up to its end or the start of its push; the same pieces `exec` runs to completion. -/
def beginInstr : Instr → State → State
  | .turnOn t => beginTurnOn t
  | .turnOff t => beginTurnOff t
  | .setBrightness t v push => beginSetBrightness t v push
  | .setRed t v push => beginSetRed t v push
  | .setGreen t v push => beginSetGreen t v push
  | .setBlue t v push => beginSetBlue t v push
  | .updateAll => beginUpdateAll
  | .teardown => beginTeardown
  | .reserved0 => beginIllegal
  | .reserved8 => beginIllegal
  | .reserved9 => beginIllegal
  | .reservedA => beginIllegal
  | .reservedB => beginIllegal
  | .reservedC => beginIllegal
  | .reservedD => beginIllegal
  | .reservedE => beginIllegal

/-- The next word of caller `k`, and the state with that word gone from its queue; none if it has no word left. Only the
head of a queue is ever taken: each caller's own commands keep their order (20_memory.md R62). -/
def takeWord (k : Nat) (s : State) : Option (Word × State) :=
  match s.callers[k]? with
  | some (w :: ws) => some (w, { s with callers := s.callers.set k ws })
  | _ => none

/-- A word accepted while BUSY = 0: the whole command as one step, or its part before the push (log 1). -/
def acceptWord (w : Word) (s : State) : Result :=
  match s.grain with
  | .command => exec (decode w) s
  | .lineWrite => .next (beginInstr (decode w) s)

/-- Caller `k`'s turn while BUSY = 0: its next word is accepted; a caller with no word left lets its turn pass (log 4). -/
def takeCaller (k : Nat) (s : State) : Result :=
  match takeWord k s with
  | some (w, s1) => acceptWord w s1
  | none => .next s

/-- A line write by another agent while BUSY = 0: no meaning while the block owns the line, so refused
(70_reset_and_hazards.md R240, 60_exceptions.md R213); a line the block does not own is outside it, and nothing of its
state changes (log 9). -/
def takeForeignWrite (l : Line) (s : State) : Result :=
  match l with
  | .dat => if s.ownDat then .refused .foreignLineWrite else .next s
  | .clk => if s.ownClk then .refused .foreignLineWrite else .next s

/-- One turn of the outside world while BUSY = 0. With none left the block is idle and holds its state
(60_exceptions.md R218; log 15). -/
def takeTurn (s : State) : Result :=
  match s.turns with
  | [] => .next s
  | .caller k :: rest => takeCaller k { s with turns := rest }
  | .awaitIdle :: rest => .next { s with turns := rest }
  | .construct p :: rest => takeConstruct p { s with turns := rest }
  | .foreignWrite l _ :: rest => takeForeignWrite l { s with turns := rest }

/-- One step while BUSY = 1. A caller or a waiting host gets no step until BUSY = 0, so its turn stays and the push
advances (70_reset_and_hazards.md R241); CONSTRUCT and a foreign line write have no meaning now (R231, R240). -/
def busyStep (s : State) : Result :=
  match s.turns with
  | .construct _ :: _ => .refused .constructWhileBusy
  | .foreignWrite _ _ :: _ => .refused .foreignLineWrite
  | [] => advancePush s
  | .caller _ :: _ => advancePush s
  | .awaitIdle :: _ => advancePush s

/-- Put a word where the next step takes its command from: at the head of caller 0's queue, with caller 0's turn next. -/
def presentWord (w : Word) (s : State) : State :=
  { s with
    callers := match s.callers with
      | [] => [[w]]
      | q :: qs => (w :: q) :: qs
    turns := .caller 0 :: s.turns
    grain := .command }

end Sys2Proof.Machine
end

