-- ==== Sys2Proof/Machine/Step.lean ====
section
/-! DEFINITION. One step of the machine, and how a command word is placed for it. -/

namespace Sys2Proof.Machine

/-- One step: while BUSY = 1 the running push goes on, else the outside world has its next turn (10_state.md R30). -/
def step (s : State) : Host.Outcome State Fault Refusal :=
  if s.busy then busyStep s else takeTurn s

/-- `s` with the command word of `nbits` bits `w` presented by caller 0 as the next turn, one step a command, so that the
next step of a state that is not busy accepts and runs exactly it. The block fetches nothing (10_state.md R26): this stands
for a host that writes `CMD` (log 2). -/
def State.withFetchWord (s : State) (nbits w : Nat) : State := presentWord (tableWord nbits w) s

end Sys2Proof.Machine
end

