-- ==== Sys2Proof/Machine/Assembly.lean ====
section
/-! DEFINITION. The assembly text of a command and the pseudo-instructions (30_encoding.md R80, R81). -/

namespace Sys2Proof.Machine

/-- `target` in assembly: `all` or a signed decimal index (30_encoding.md R80). -/
def targetText : Target → String
  | .all => "all"
  | .one i => toString i

/-- `target, value [, push]` (30_encoding.md R80). -/
def setText (t : Target) (v : Int) (push : Bool) : String :=
  targetText t ++ ", " ++ toString v ++ (if push then ", push" else "")

/-- One line of assembly; a reserved opcode has none (30_encoding.md R80). -/
def asmText : Instr → Option String
  | .turnOn t => some ("TURN_ON " ++ targetText t)
  | .turnOff t => some ("TURN_OFF " ++ targetText t)
  | .setBrightness t v push => some ("SET_BRIGHTNESS " ++ setText t v push)
  | .setRed t v push => some ("SET_RED " ++ setText t v push)
  | .setGreen t v push => some ("SET_GREEN " ++ setText t v push)
  | .setBlue t v push => some ("SET_BLUE " ++ setText t v push)
  | .updateAll => some "UPDATE_ALL"
  | .teardown => some "TEARDOWN"
  | .reserved0 => none
  | .reserved8 => none
  | .reserved9 => none
  | .reservedA => none
  | .reservedB => none
  | .reservedC => none
  | .reservedD => none
  | .reservedE => none

/-- The pseudo-instructions (30_encoding.md R81). -/
inductive Pseudo where
  | commit
  | setPixel (t : Target) (r g b percent : Int)
  deriving DecidableEq, Repr

/-- The commands a pseudo-instruction expands to, not atomic across commands (30_encoding.md R81,
70_reset_and_hazards.md R242). -/
def Pseudo.expand : Pseudo → List Instr
  | .commit => [.updateAll]
  | .setPixel t r g b percent =>
    [.setRed t r false, .setGreen t g false, .setBlue t b false, .setBrightness t percent false, .updateAll]

end Sys2Proof.Machine
end

