-- ==== Sys2Proof/Machine/Observe.lean ====
section
/-! DEFINITION. Derived views of a line trace: what a receiver samples, the rising edges, the observation of a run
(43_sequencer.md R180, R182; 92_eei_decisions.md D24, D25). -/

namespace Sys2Proof.Machine

/-- The `DAT` levels at the clock writes of 1, from data level `d` (43_sequencer.md R180). A view only: which edge the LED
chips sample on is in no source (log 21). -/
def sampled : Level → List LineEvent → List Level
  | _, [] => []
  | _, ⟨.dat, v⟩ :: es => sampled v es
  | d, ⟨.clk, true⟩ :: es => d :: sampled d es
  | d, ⟨.clk, false⟩ :: es => sampled d es

/-- The rising edges of the clock, from clock level `c`: the clock writes of 1 made while the clock was 0
(43_sequencer.md R182). -/
def risingEdges : Level → List LineEvent → Nat
  | _, [] => 0
  | c, ⟨.dat, _⟩ :: es => risingEdges c es
  | c, ⟨.clk, true⟩ :: es => (if c then 0 else 1) + risingEdges true es
  | _, ⟨.clk, false⟩ :: es => risingEdges false es

/-- The levels of the data-line writes of a trace, in order (43_sequencer.md R175). -/
def dataWrites (es : List LineEvent) : List Level :=
  es.filterMap fun e => if e.line = .dat then some e.level else none

/-- What a run shows at its end (92_eei_decisions.md D24). -/
structure Observation where
  pix : PixelFile
  life : Life
  status : BitVec 3
  dat : Level
  clk : Level
  ownDat : Bool
  ownClk : Bool
  trace : List LineEvent
  deriving DecidableEq, Repr

/-- The observation of a state (92_eei_decisions.md D24). -/
def State.observe (s : State) : Observation :=
  ⟨s.pix, s.life, s.status, s.dat, s.clk, s.ownDat, s.ownClk, s.trace⟩

/-- The end of a run: `BUSY = 0`, no caller has a command left, `PHASE = IDLE` (92_eei_decisions.md D24). -/
def State.quiescent (s : State) : Bool :=
  !s.busy && s.callers.all List.isEmpty && decide (s.phase = .idle)

end Sys2Proof.Machine
end

