-- ==== Sys2Proof/Safety.lean ====
section
/-! DEFINITION. What a sound state of the block is (an invariant of every step), when a trace is well grouped, and what a
safe run is, in the terms the statements use. -/

namespace Sys2Proof.Safety

open Sys2Proof.Machine

/-- Every brightness is in its legal range; the channels are by their type (10_state.md R22). -/
def PixelsLegal (pix : PixelFile) : Prop :=
  ∀ (j : Nat) (h : j < Config.numPixels), 0 ≤ pix[j].bri ∧ pix[j].bri ≤ 1

/-- The byte of `SNAP` being serialised, `4·PIXI + BYTI` (43_sequencer.md R177). -/
def byteIndex (s : State) : Nat := 4 * s.pixi.val + s.byti.val

/-- `SHR` holds the byte being serialised, shifted once per bit whose clock has been high (43_sequencer.md R174). -/
def ShiftRegisterHolds (s : State) : Prop :=
  ∃ x, s.snap[byteIndex s]? = some x ∧
    s.shr = x <<< (s.biti.val + (if s.sub = .clkl then 1 else 0))

/-- The sequencer registers stand in a row of 43_sequencer.md R177, with `CNT` in the range of that row; in
the unlock phase the serialising registers stand as the last bit-group left them. -/
def SequencerInRow (s : State) : Prop :=
  match s.phase with
  | .idle => True
  | .lock => 0 < s.cnt ∧ s.cnt ≤ lockPulses ∧ (s.sub = .setd → s.cnt = lockPulses)
  | .data => ShiftRegisterHolds s
  | .unlock =>
    0 < s.cnt ∧ s.cnt ≤ unlockPulses ∧ s.sub ≠ .setd ∧ s.pixi = 7 ∧ s.byti = 3 ∧ s.biti = 0 ∧ s.shr = 0#8

/-- The invariant of the block. -/
structure Inv (s : State) : Prop where
  /-- 10_state.md R22. -/
  pixelsLegal : PixelsLegal s.pix
  /-- `CNT` is in 0..36 (10_state.md R28). -/
  cntInRange : s.cnt ≤ lockPulses
  /-- A push runs exactly while BUSY = 1 (10_state.md R28, R30). -/
  busyIffPushing : s.busy = true ↔ s.phase ≠ .idle
  /-- A running push has a job, and only a running push (log 10). -/
  busyIffJob : s.busy = true ↔ s.job ≠ none
  /-- A command runs only in READY (42_commands.md R140); construction only outside it (70_reset_and_hazards.md R231). -/
  jobFitsLife : ∀ j, s.job = some j → (s.life = .ready ↔ j ≠ .construct)
  /-- The data line is owned exactly in READY and during the push of construction (10_state.md R33). -/
  ownDatIff : s.ownDat = true ↔ (s.life = .ready ∨ s.busy = true)
  /-- The clock line likewise (10_state.md R33). -/
  ownClkIff : s.ownClk = true ↔ (s.life = .ready ∨ s.busy = true)
  /-- Between commands in READY the clock is low (43_sequencer.md R178). -/
  clockLowBetween : s.life = .ready → s.busy = false → s.clk = false
  /-- The snapshot cannot differ from `PIX` while a push runs (20_memory.md R64, R69). -/
  snapshotIsFrame : s.busy = true → s.snap = frameBytes s.pix
  /-- 43_sequencer.md R177. -/
  sequencerInRow : SequencerInRow s
  /-- `HOSTS` is at least 1 (00_scope.md R8). -/
  hostsAtLeastOne : 1 ≤ s.hosts

/-- The line writes of the bit-groups that remain of the byte in `SHR` and of the bytes after it, then the unlock phase. -/
def laterBits (n : Nat) (shr : Byte) (s : State) : List LineEvent :=
  shiftOut n shr ++ (serializeBytes (s.snap.toList.drop (byteIndex s + 1)) ++ pulses unlockPulses)

/-- The line writes a running push has still to make, read off the sequencer registers (43_sequencer.md R177). -/
def pendingWrites (s : State) : List LineEvent :=
  match s.phase, s.sub with
  | .idle, _ => []
  | .lock, .setd => ⟨.dat, false⟩ :: (pulses s.cnt ++ (serializeBytes s.snap.toList ++ pulses unlockPulses))
  | .lock, .clkh => pulses s.cnt ++ (serializeBytes s.snap.toList ++ pulses unlockPulses)
  | .lock, .clkl =>
    ⟨.clk, false⟩ :: (pulses (s.cnt - 1) ++ (serializeBytes s.snap.toList ++ pulses unlockPulses))
  | .data, .setd => laterBits (8 - s.biti.val) s.shr s
  | .data, .clkh => ⟨.clk, true⟩ :: ⟨.clk, false⟩ :: laterBits (7 - s.biti.val) (s.shr <<< 1) s
  | .data, .clkl => ⟨.clk, false⟩ :: laterBits (7 - s.biti.val) s.shr s
  | .unlock, .clkl => ⟨.clk, false⟩ :: pulses (s.cnt - 1)
  | .unlock, _ => pulses s.cnt

/-- The trace, with the writes the running push has still to make, is a row of whole pushes: every push is one contiguous
well-formed group (43_sequencer.md R184, 20_memory.md R66). -/
def TraceGrouped (s : State) : Prop :=
  ∃ frames : List (Vector Byte 32), s.trace ++ pendingWrites s = frames.flatMap pushEvents

/-- The next turn of the outside world keeps the host's and platform's duties while a push runs: it is a caller's or a
wait, not CONSTRUCT or a foreign write (92_eei_decisions.md D28). -/
def waitsPolitely : List Turn → Bool
  | [] => true
  | .caller _ :: _ => true
  | .awaitIdle :: _ => true
  | .construct _ :: _ => false
  | .foreignWrite _ _ :: _ => false

/-- A safe run: after each of `n` steps the machine is in a state that meets the invariant, with its trace well grouped. -/
def SafeRun : Nat → State → Prop
  | 0, s => Inv s ∧ TraceGrouped s
  | n + 1, s =>
    Inv s ∧ TraceGrouped s ∧ ∀ t, step s = Host.Outcome.next t → SafeRun n t

end Sys2Proof.Safety
end

