-- ==== Sys2Proof/Certificates/Slice0/Obligations.lean ====
section
/-! DEFINITION. The statements about the block for the provers, one `def Obligations.<Name> : Prop` each, listed in
OBLIGATIONS.json. The words they share come first. -/

open Sys2Proof Sys2Proof.Machine Sys2Proof.Safety

namespace Sys2Proof.Claims

/-- `f` answers the next state `t`. -/
abbrev Answers (r : Result) (t : State) : Prop := r = Host.Outcome.next t

/-- The block is idle and READY: the next word is accepted and passes the lifecycle check (42_commands.md R140). -/
structure Ready (s : State) : Prop where
  notBusy : s.busy = false
  life : s.life = .ready

/-- The target names a pixel that exists (20_memory.md R51). -/
def LegalTarget (t : Target) : Prop := ∀ i, t = .one i → 0 ≤ i ∧ i ≤ 7

/-- Pixel `j` is one of `pixels(t)` (00_scope.md R15). -/
abbrev Targets (t : Target) (j : Nat) : Prop := t = .all ∨ t = .one (j : Int)

/-- `px` is `old` with `f` applied to every targeted pixel and every other pixel as it was (40_pixel_ops.md R108). -/
def Written (t : Target) (f : Pixel → Pixel) (old px : PixelFile) : Prop :=
  ∀ (j : Nat) (h : j < 8), px[j] = if Targets t j then f old[j] else old[j]

/-- Everything a command without a line's release leaves alone: lifecycle, ownership, and the model's own fields outside the
sequencer. With `Pushed` it is the frame of a pushing command. -/
structure SameOutside (s u : State) : Prop where
  life : u.life = s.life
  ownDat : u.ownDat = s.ownDat
  ownClk : u.ownClk = s.ownClk
  sinkCalls : u.sinkCalls = s.sinkCalls
  callers : u.callers = s.callers
  turns : u.turns = s.turns
  grain : u.grain = s.grain

/-- `u` is what a command that wrote the pixels `px`, pushed them and ended with OK leaves: the trace grown by that one push,
the lines at its last levels, the block idle. The hidden sequencer registers are left out: they are unobservable. -/
structure Pushed (px : PixelFile) (s u : State) : Prop where
  pix : u.pix = px
  trace : u.trace = s.trace ++ pushEvents (frameBytes px)
  dat : u.dat = px[7].red.getLsbD 0
  clk : u.clk = false
  status : u.status = Status.ok
  busy : u.busy = false
  phase : u.phase = .idle
  job : u.job = none

/-- The bits of a word that its command reads (30_encoding.md R72, R73, R75, R77). -/
def readMask (w : Word) : Word :=
  let all := w.getLsbD 26
  match (w.extractLsb' 28 4).toNat with
  | 1 => if all then 0xF4000000#32 else 0xF4FF0000#32
  | 2 => if all then 0xF4000000#32 else 0xF4FF0000#32
  | 3 => if all then 0xFC00FFFF#32 else 0xFCFFFFFF#32
  | 4 => if all then 0xFC00FFFF#32 else 0xFCFFFFFF#32
  | 5 => if all then 0xFC00FFFF#32 else 0xFCFFFFFF#32
  | 6 => if all then 0xFC00FFFF#32 else 0xFCFFFFFF#32
  | _ => 0xF0000000#32

/-- The word's opcode is reserved (30_encoding.md R77, R78). -/
abbrev opcReserved (w : Word) : Prop :=
  (w.extractLsb' 28 4).toNat = 0 ∨ (8 ≤ (w.extractLsb' 28 4).toNat ∧ (w.extractLsb' 28 4).toNat ≤ 14)

/-- The word names one pixel and its index is outside 0..7 (60_exceptions.md R203). -/
abbrev indexBad (w : Word) : Prop :=
  1 ≤ (w.extractLsb' 28 4).toNat ∧ (w.extractLsb' 28 4).toNat ≤ 6 ∧ w.getLsbD 26 = false ∧
    ¬ (0 ≤ (w.extractLsb' 16 8).toInt ∧ (w.extractLsb' 16 8).toInt ≤ 7)

/-- The word's operand is outside the range its command accepts (60_exceptions.md R201). -/
abbrev valueBad (w : Word) : Prop :=
  ((w.extractLsb' 28 4).toNat = 3 ∧ ¬ (0 ≤ (w.extractLsb' 0 16).toInt ∧ (w.extractLsb' 0 16).toInt ≤ 100)) ∨
  (4 ≤ (w.extractLsb' 28 4).toNat ∧ (w.extractLsb' 28 4).toNat ≤ 6 ∧
    ¬ (0 ≤ (w.extractLsb' 0 16).toInt ∧ (w.extractLsb' 0 16).toInt ≤ 255))

/-- The four prefixes a hex colour may have, none among them (40_pixel_ops.md R105). -/
def hexPrefixes : List (List Char) := [[], ['#'], ['0', 'x'], ['0', 'X']]

/-- The smallest percent of each brightness code, code 0 first: the table of 41_encoder.md R121. -/
def firstPercents : List Nat :=
  [0, 4, 7, 10, 13, 17, 20, 23, 26, 30, 33, 36, 39, 42, 46, 49,
    52, 55, 59, 62, 65, 68, 71, 75, 78, 81, 84, 88, 91, 94, 97, 100]

/-- A legal channel value stored in 8 bits is that value, exactly (42_commands.md R145). -/
abbrev ChannelExact : Prop := ∀ v : Int, 0 ≤ v → v ≤ 255 → ((BitVec.ofInt 8 v).toNat : Int) = v

/-- Byte `j` of the frame, written out: pixel `j div 4`, field `j mod 4` (41_encoder.md R120, R124). -/
def wireByte (pix : PixelFile) (j : Fin 32) : Byte :=
  let p := pix[j.val / 4]'(by show _ < 8; omega)
  match j.val % 4 with
  | 0 => 0b11100000#8 ||| (BitVec.ofInt 8 (31 * p.bri).floor &&& 0b11111#8)
  | 1 => p.blue
  | 2 => p.green
  | _ => p.red

/-- Event `e` of a push of `pix`, by its position (43_sequencer.md R179). -/
def eventAt (pix : PixelFile) (e : Nat) : Option LineEvent :=
  if e = 0 then some ⟨.dat, false⟩
  else if e ≤ 72 then some ⟨.clk, e % 2 == 1⟩
  else if e ≤ 840 then
    match (e - 73) % 3 with
    | 0 => (dataBits pix)[(e - 73) / 3]?.map fun b => ⟨.dat, b⟩
    | 1 => some ⟨.clk, true⟩
    | _ => some ⟨.clk, false⟩
  else if e ≤ 904 then some ⟨.clk, e % 2 == 1⟩
  else none

/-- The line writes that realise one part of the abstract frame: a lock marker is data held low and n pulses, a byte its
eight bit-groups, an unlock marker n pulses (43_sequencer.md R172, R173, R176, 90_conflicts.md C4). -/
def realise : FrameItem → List LineEvent
  | .lock n => ⟨.dat, false⟩ :: (List.replicate n [⟨.clk, true⟩, ⟨.clk, false⟩]).flatten
  | .byte b => (byteBits b).flatMap fun v => [⟨.dat, v⟩, ⟨.clk, true⟩, ⟨.clk, false⟩]
  | .unlock n => (List.replicate n [⟨.clk, true⟩, ⟨.clk, false⟩]).flatten

/-- Run commands one after the other, each to completion (20_memory.md R61). -/
def runAll : List Instr → State → Result
  | [], s => .next s
  | i :: is, s =>
    match exec i s with
    | .next t => runAll is t
    | .fault r => .fault r
    | .refused r => .refused r

/-- One SET_* rule: the index check, then the value check (legal exactly in 0..max), then the write of `field v` to every
targeted pixel, then the push if asked for. Every clause gives the whole next state or its whole frame. -/
def SetRule (cmd : Target → Int → Bool → Instr) (max : Int) (field : Int → Pixel → Pixel) : Prop :=
  ∀ (s : State) (t : Target) (v : Int) (push : Bool), Ready s →
    (¬ LegalTarget t → Answers (exec (cmd t v push) s) { s with status := Status.indexError }) ∧
    (LegalTarget t → ¬ (0 ≤ v ∧ v ≤ max) →
      Answers (exec (cmd t v push) s) { s with status := Status.rangeError }) ∧
    (LegalTarget t → 0 ≤ v → v ≤ max → ∃ px, Written t (field v) s.pix px ∧
      (push = false → Answers (exec (cmd t v push) s) { s with pix := px, status := Status.ok }) ∧
      (push = true → ∃ u, Answers (exec (cmd t v push) s) u ∧ Pushed px s u ∧ SameOutside s u))

end Sys2Proof.Claims

open Sys2Proof.Claims

/-! ## Encodings -/

/-- Decoding an encoded well-formed command gives it back, for every command and every operand its fields can hold
(30_encoding.md R70 to R77). -/
def Obligations.DecodeEncodeRoundTrip : Prop :=
  ∀ i : Instr, i.wf = true → decode (encode i) = i

/-- Every word decodes to a well-formed command, whose canonical word is the word with the bits its command does not read
cleared (30_encoding.md R71, R76). -/
def Obligations.EncodeDecodeKeepsTheBitsRead : Prop :=
  ∀ w : Word, (decode w).wf = true ∧ encode (decode w) = w &&& readMask w

/-- Bits the executing command does not read may hold any value and do not change the result, and the canonical encoding sets
them to 0 (30_encoding.md R76). -/
def Obligations.IgnoredBitsDoNotMatter : Prop :=
  (∀ w v : Word, w &&& readMask w = v &&& readMask w → decode v = decode w ∧ ∀ s, exec (decode v) s = exec (decode w) s) ∧
  (∀ i : Instr, i.wf = true → encode i &&& readMask (encode i) = encode i)

/-- Words written out from the spec's encodings decode to the commands they stand for (30_encoding.md R80,
95_test_vectors.md V52, V67, V77). -/
def Obligations.WrittenOutWordsDecode : Prop :=
  decode 0x480300C8#32 = .setRed (.one 3) 200 true ∧
  decode 0x34000032#32 = .setBrightness .all 50 false ∧
  decode 0x10030000#32 = .turnOn (.one 3) ∧
  decode 0x1C030000#32 = .turnOn .all ∧
  decode 0x24000000#32 = .turnOff .all ∧
  decode 0x50030064#32 = .setGreen (.one 3) 100 false ∧
  decode 0x68000100#32 = .setBlue (.one 0) 256 true ∧
  decode 0x40FF0005#32 = .setRed (.one (-1)) 5 false ∧
  decode 0x7FFFFFFF#32 = .updateAll ∧
  decode 0xF0000000#32 = .teardown ∧
  decode 0x00000000#32 = .reserved0 ∧
  decode 0xE4000000#32 = .reservedE

/-! ## A step runs the decoded command -/

/-- A caller's turn in an idle block, one step a command: the step is `exec` of the command its next word decodes to, in the
state with that turn and that word taken away. -/
def Obligations.StepRunsTheDecodedCommand : Prop :=
  ∀ (s : State) (k : Nat) (w : Word) (ws : List Word) (rest : List Turn),
    s.busy = false → s.grain = .command → s.turns = .caller k :: rest → s.callers[k]? = some (w :: ws) →
    step s = exec (decode w) { s with turns := rest, callers := s.callers.set k ws }

/-- A word placed by `withFetchWord` in an idle block is run by the very next step, in the state as it was (one step a
command; an empty first queue is left where there was no caller). -/
def Obligations.StepRunsThePlacedWord : Prop :=
  ∀ (s : State) (nbits w : Nat), s.busy = false →
    step (s.withFetchWord nbits w) =
      exec (decode (BitVec.ofNat 32 (w % 2 ^ nbits)))
        { s with grain := .command, callers := if s.callers = [] then [[]] else s.callers }

/-- With no turn left an idle block holds its whole state (60_exceptions.md R218; a step that changes nothing is the model's
choice, log 15). -/
def Obligations.IdleBlockHoldsItsState : Prop :=
  ∀ s : State, s.busy = false → s.turns = [] → step s = .next s

/-! ## Pixel operations -/

/-- setRed, setGreen and setBlue: a legal value is stored exactly in its own field, any other raises RangeError
(40_pixel_ops.md R101, R102, R103). -/
def Obligations.SetChannelStoresExactlyOrRejects : Prop :=
  ∀ (p : Pixel) (v : Int),
    (0 ≤ v → v ≤ 255 → ∃ c : Byte, (c.toNat : Int) = v ∧
      p.setRed v = .ok { p with red := c } ∧ p.setGreen v = .ok { p with green := c } ∧
      p.setBlue v = .ok { p with blue := c }) ∧
    (¬ (0 ≤ v ∧ v ≤ 255) →
      p.setRed v = .error .range ∧ p.setGreen v = .error .range ∧ p.setBlue v = .error .range)

/-- setBrightness: the closed range [0, 1] is stored exactly, anything else raises RangeError, and what is stored from
(0, 1/31) quantises to brightness code 0 (40_pixel_ops.md R100). -/
def Obligations.SetBrightnessStoresExactlyOrRejects : Prop :=
  ∀ (p : Pixel) (v : Rat),
    (0 ≤ v → v ≤ 1 → p.setBrightness v = .ok { p with bri := v }) ∧
    (v < 0 ∨ 1 < v → p.setBrightness v = .error .range) ∧
    (0 < v → v < 1 / 31 → p.setBrightness v = .ok { p with bri := v } ∧ briCode v = 0#8)

/-- setRgb writes all four fields or none, with one RangeError whatever operands are bad (40_pixel_ops.md R104). -/
def Obligations.SetRgbWritesAllOrNothing : Prop :=
  ∀ (p : Pixel) (r g b : Int) (bri : Rat),
    ((0 ≤ r ∧ r ≤ 255) ∧ (0 ≤ g ∧ g ≤ 255) ∧ (0 ≤ b ∧ b ≤ 255) ∧ 0 ≤ bri ∧ bri ≤ 1 →
      ∃ q : Pixel, p.setRgb r g b bri = .ok q ∧ (q.red.toNat : Int) = r ∧ (q.green.toNat : Int) = g ∧
        (q.blue.toNat : Int) = b ∧ q.bri = bri) ∧
    (¬ ((0 ≤ r ∧ r ≤ 255) ∧ (0 ≤ g ∧ g ≤ 255) ∧ (0 ≤ b ∧ b ≤ 255) ∧ 0 ≤ bri ∧ bri ≤ 1) →
      p.setRgb r g b bri = .error .range)

/-- setFromHex: one optional prefix and six hex digits give the three channels and the brightness; a bad brightness with a
well-formed string raises RangeError; every other string raises FormatError, whatever the brightness
(40_pixel_ops.md R105). -/
def Obligations.SetFromHexParsesOrRejects : Prop :=
  (∀ (p : Pixel) (bri : Rat) (pre : List Char) (a b c d e f : Char) (na nb nc nd ne nf : Nat), pre ∈ hexPrefixes →
    hexval a = some na → hexval b = some nb → hexval c = some nc → hexval d = some nd → hexval e = some ne →
    hexval f = some nf →
    (0 ≤ bri ∧ bri ≤ 1 → ∃ q : Pixel, p.setFromHex (pre ++ [a, b, c, d, e, f]) bri = .ok q ∧ q.red.toNat = 16 * na + nb ∧
      q.green.toNat = 16 * nc + nd ∧ q.blue.toNat = 16 * ne + nf ∧ q.bri = bri) ∧
    (¬ (0 ≤ bri ∧ bri ≤ 1) → p.setFromHex (pre ++ [a, b, c, d, e, f]) bri = .error .range)) ∧
  (∀ (p : Pixel) (bri : Rat) (str : List Char),
    (¬ ∃ pre ∈ hexPrefixes, ∃ ds : List Char, str = pre ++ ds ∧ ds.length = 6 ∧ ∀ c ∈ ds, (hexval c).isSome) →
    p.setFromHex str bri = .error .format) ∧
  (∀ (c : Char) (n : Nat), hexval c = some n ↔
    n < 16 ∧ (['0', '1', '2', '3', '4', '5', '6', '7', '8', '9', 'a', 'b', 'c', 'd', 'e', 'f'][n]? = some c ∨
      ['0', '1', '2', '3', '4', '5', '6', '7', '8', '9', 'A', 'B', 'C', 'D', 'E', 'F'][n]? = some c))

/-! ## The encoder -/

/-- The brightness code of every legal brightness: the exact floor, its bands, its two ends, floor(31p/100) for a host
percent, and the smallest percent of each code (41_encoder.md; the table of smallest percents is the spec's inference from
its formula). -/
def Obligations.BrightnessCodeIsTheExactFloor : Prop :=
  (∀ b : Rat, 0 ≤ b → b ≤ 1 →
    ((briCode b).toNat : Int) = (31 * b).floor ∧
    (∀ k : Nat, k ≤ 30 → ((briCode b).toNat = k ↔ (k : Rat) / 31 ≤ b ∧ b < ((k : Rat) + 1) / 31)) ∧
    ((briCode b).toNat = 31 ↔ b = 1) ∧
    (∀ p : Nat, p ≤ 100 → b = (p : Rat) / 100 → (briCode b).toNat = 31 * p / 100)) ∧
  (∀ (k p : Nat), firstPercents[k]? = some p →
    (briCode ((p : Rat) / 100)).toNat = k ∧ ∀ n : Nat, n < p → (briCode ((n : Rat) / 100)).toNat < k)

/-- A header byte is the marker 0b111 over the brightness code and lies in 0xE0..0xFF, for any brightness at all
(30_encoding.md R82 and the range the spec derives after it). -/
def Obligations.HeaderByteHoldsMarkerAndCode : Prop :=
  ∀ b : Rat, (headerByte b).extractLsb' 5 3 = 0b111#3 ∧ (headerByte b).extractLsb' 0 5 = (briCode b).extractLsb' 0 5 ∧
    0xE0 ≤ (headerByte b).toNat ∧ (headerByte b).toNat = 0xE0 + (briCode b).toNat

/-- The data bits by position: bit k is bit 7 - (k mod 8) of byte k div 8, and byte j is field j mod 4 (header, blue, green,
red) of pixel j div 4 (20_memory.md R52, R53, R54, as 41_encoder.md derives it). -/
def Obligations.DataBitsByPosition : Prop :=
  ∀ pix : PixelFile, (dataBits pix).length = 256 ∧
    ∀ (k : Nat) (h : k < 256),
      (dataBits pix)[k]? = some ((wireByte pix ⟨k / 8, by omega⟩).getLsbD (7 - k % 8))

/-- The line writes of a push realise the abstract frame part by part, its markers as raw pulses (41_encoder.md R123,
90_conflicts.md C4). -/
def Obligations.PushRealisesTheAbstractFrame : Prop :=
  ∀ pix : PixelFile, pushEvents (frameBytes pix) = (encFrame pix).flatMap realise

/-! ## The push -/

/-- Every push makes exactly 905 line writes: 257 of DAT, 324 of CLK to 1 and 324 of CLK to 0, whatever the pixels hold, and
event e is fixed by its position (the count and the table the spec derives from 43_sequencer.md R170). -/
def Obligations.PushEventsByCountAndPosition : Prop :=
  ∀ pix : PixelFile,
    (pushEvents (frameBytes pix)).length = 905 ∧
    (pushEvents (frameBytes pix)).countP (fun e => e.line = .dat) = 257 ∧
    (pushEvents (frameBytes pix)).count ⟨.clk, true⟩ = 324 ∧
    (pushEvents (frameBytes pix)).count ⟨.clk, false⟩ = 324 ∧
    ∀ e : Nat, (pushEvents (frameBytes pix))[e]? = eventAt pix e

/-- The data-line writes of a push are the lock phase's 0 and then the data bits in order (derived in the spec from
43_sequencer.md R173). -/
def Obligations.PushDataWritesAreTheDataBits : Prop :=
  ∀ pix : PixelFile, dataWrites (pushEvents (frameBytes pix)) = false :: dataBits pix

/-- A receiver that samples at clock writes of 1 sees 36 zeros, the 256 data bits, then the last data bit 32 times, whatever
the level before; sampling on that write is the spec's assumption, not the source's (43_sequencer.md section 2; log 21). -/
def Obligations.SampledBitstreamOfAPush : Prop :=
  ∀ (pix : PixelFile) (d : Level),
    sampled d (pushEvents (frameBytes pix)) =
      List.replicate 36 false ++ dataBits pix ++ List.replicate 32 (pix[7].red.getLsbD 0)

/-- A push from a low clock has 324 rising edges and from a high clock 323, and leaves the clock low, so every later push has
324 (43_sequencer.md section 2). -/
def Obligations.RisingEdgesOfAPush : Prop :=
  ∀ (pix : PixelFile) (c : Level),
    risingEdges false (pushEvents (frameBytes pix)) = 324 ∧
    risingEdges true (pushEvents (frameBytes pix)) = 323 ∧
    levelAfter .clk (pushEvents (frameBytes pix)) c = false

/-- Within a push every clock write of 1 is followed at once by the clock write of 0, every data write at once by the clock
write of 1 that samples it, and every data write but the first comes right after a clock write of 0
(43_sequencer.md section 2). -/
def Obligations.DataStableWhileClockHigh : Prop :=
  ∀ (pix : PixelFile) (n : Nat),
    ((pushEvents (frameBytes pix))[n]? = some ⟨.clk, true⟩ →
      (pushEvents (frameBytes pix))[n + 1]? = some ⟨.clk, false⟩) ∧
    (∀ v, (pushEvents (frameBytes pix))[n]? = some ⟨.dat, v⟩ →
      (pushEvents (frameBytes pix))[n + 1]? = some ⟨.clk, true⟩ ∧
      (n ≠ 0 → (pushEvents (frameBytes pix))[n - 1]? = some ⟨.clk, false⟩))

/-- After a push the clock is low and the data line holds the last data bit, bit 0 of pixel 7's red, whatever the levels
before (derived in the spec from 43_sequencer.md R170 and R176). -/
def Obligations.LineLevelsAfterAPush : Prop :=
  ∀ (pix : PixelFile) (s : State),
    (lineWrites (pushEvents (frameBytes pix)) s).clk = false ∧
    (lineWrites (pushEvents (frameBytes pix)) s).dat = pix[7].red.getLsbD 0 ∧
    (pix = PixelFile.off → (lineWrites (pushEvents (frameBytes pix)) s).dat = false)

/-- The shift register: after k shifts it holds (x · 2^k) mod 256, the bit sent at step k is x[7 - k], after eight shifts it
is 0, and the eight bit-groups of a byte send its bits most significant first (43_sequencer.md R173 and the arithmetic the
spec derives from it). -/
def Obligations.ShiftRegisterSendsTheByte : Prop :=
  ∀ x : Byte, (∀ k : Nat, k ≤ 8 → (x <<< k).toNat = x.toNat * 2 ^ k % 256) ∧
    (∀ k : Nat, k ≤ 7 → (x <<< k).getLsbD 7 = x.getLsbD (7 - k)) ∧ x <<< 8 = 0#8 ∧
    shiftOut 8 x = (byteBits x).flatMap fun b => [⟨.dat, b⟩, ⟨.clk, true⟩, ⟨.clk, false⟩]

/-! ## The sequencer, one line write a step -/

/-- While a push runs and the host keeps its duties, each step makes exactly the next of the writes still to come: one trace
event, its level on its own line, pixels and callers untouched (43_sequencer.md R186 and the micro-step table the spec derives
in section 1). That BUSY falls in the very step of the last write is the model's choice (log 10): R183 says only that the
command cannot complete before it. -/
def Obligations.BusyStepMakesTheNextLineWrite : Prop :=
  ∀ s : State, Inv s → s.busy = true → waitsPolitely s.turns = true →
    ∃ (t : State) (e : LineEvent) (rest : List LineEvent), Answers (step s) t ∧
      pendingWrites s = e :: rest ∧ pendingWrites t = rest ∧ t.trace = s.trace ++ [e] ∧
      t.dat = (if e.line = .dat then e.level else s.dat) ∧ t.clk = (if e.line = .clk then e.level else s.clk) ∧
      (t.busy = false ↔ rest = []) ∧
      t.pix = s.pix ∧ t.snap = s.snap ∧ t.callers = s.callers ∧ t.turns = s.turns ∧ t.grain = s.grain ∧
      (t.busy = true → t.life = s.life ∧ t.status = s.status ∧ t.ownDat = s.ownDat ∧ t.ownClk = s.ownClk ∧
        t.sinkCalls = s.sinkCalls ∧ t.job = s.job)

/-- One line write a step and one command a step are the same machine: from an idle block, a command accepted by line writes
reaches, after at most 906 steps, exactly the state `exec` answers (20_memory.md R67, 43_sequencer.md R183;
92_eei_decisions.md D29). What one step is, and so the bound of one step more than the 905 writes, is the model's choice
(log 1, log 10). -/
def Obligations.LineWriteStepsEqualTheCommand : Prop :=
  ∀ (s : State) (k : Nat) (w : Word) (ws : List Word) (rest : List Turn),
    s.busy = false → s.grain = .lineWrite → s.turns = .caller k :: rest → waitsPolitely rest = true →
    s.callers[k]? = some (w :: ws) →
    ∃ (n : Nat) (u : State), n ≤ 906 ∧ core.run n s = Host.Outcome.next u ∧
      Answers (exec (decode w) { s with turns := rest, callers := s.callers.set k ws }) u

/-- The same for construction: made by line writes it reaches, after at most 906 steps, the state the one-step construction
answers (70_reset_and_hazards.md R230; 92_eei_decisions.md D29). The number of steps is the model's choice (log 1, log 10). -/
def Obligations.LineWriteStepsEqualConstruction : Prop :=
  ∀ (s : State) (p : Platform) (rest : List Turn),
    s.busy = false → s.life ≠ .ready → s.grain = .lineWrite → s.turns = .construct p :: rest →
    waitsPolitely rest = true →
    ∃ (n : Nat) (u : State), n ≤ 906 ∧ core.run n s = Host.Outcome.next u ∧
      Answers (step { s with grain := .command }) { u with grain := .command }

/-- From any state of the invariant in which a push runs, the push runs to its end if the host keeps its duties: after as
many steps as writes were left the block has made them all (43_sequencer.md R183) and is not busy. That BUSY is 0 after exactly
that many steps is the model's choice (log 10). -/
def Obligations.RunningPushRunsToItsEnd : Prop :=
  ∀ s : State, Inv s → s.busy = true → waitsPolitely s.turns = true →
    (pendingWrites s).length ≤ 905 ∧
    ∃ u : State, core.run (pendingWrites s).length s = Host.Outcome.next u ∧
      u.busy = false ∧ u.trace = s.trace ++ pendingWrites s ∧ u.pix = s.pix

/-! ## The commands -/

/-- TURN_ON (42_commands.md R142): each targeted pixel becomes (1, 255, 255, 255), always a push, OK; a bad index changes
STATUS alone. -/
def Obligations.TurnOnResult : Prop :=
  ∀ (s : State) (t : Target), Ready s →
    (¬ LegalTarget t → Answers (exec (.turnOn t) s) { s with status := Status.indexError }) ∧
    (LegalTarget t → ∃ px u, Written t (fun _ => ⟨1, 255#8, 255#8, 255#8⟩) s.pix px ∧
      Answers (exec (.turnOn t) s) u ∧ Pushed px s u ∧ SameOutside s u)

/-- TURN_OFF (42_commands.md R143): each targeted pixel becomes (0, 0, 0, 0), always a push, OK; a bad index changes STATUS
alone. -/
def Obligations.TurnOffResult : Prop :=
  ∀ (s : State) (t : Target), Ready s →
    (¬ LegalTarget t → Answers (exec (.turnOff t) s) { s with status := Status.indexError }) ∧
    (LegalTarget t → ∃ px u, Written t (fun _ => ⟨0, 0#8, 0#8, 0#8⟩) s.pix px ∧
      Answers (exec (.turnOff t) s) u ∧ Pushed px s u ∧ SameOutside s u)

/-- SET_BRIGHTNESS (42_commands.md R144): the exact rational v/100, legal for v in 0..100; percents 0 to 3 give the same
header byte. -/
def Obligations.SetBrightnessResult : Prop :=
  SetRule .setBrightness 100 (fun v p => { p with bri := (v : Rat) / 100 }) ∧
  ∀ v : Int, 0 ≤ v → v ≤ 3 → headerByte ((v : Rat) / 100) = 0xE0#8

/-- SET_RED (42_commands.md R145). -/
def Obligations.SetRedResult : Prop :=
  SetRule .setRed 255 (fun v p => { p with red := BitVec.ofInt 8 v }) ∧ ChannelExact

/-- SET_GREEN (42_commands.md R146). -/
def Obligations.SetGreenResult : Prop :=
  SetRule .setGreen 255 (fun v p => { p with green := BitVec.ofInt 8 v }) ∧ ChannelExact

/-- SET_BLUE (42_commands.md R147). -/
def Obligations.SetBlueResult : Prop :=
  SetRule .setBlue 255 (fun v p => { p with blue := BitVec.ofInt 8 v }) ∧ ChannelExact

/-- UPDATE_ALL (42_commands.md R148): always a push of the pixels as they are, OK, no pixel written. -/
def Obligations.UpdateAllResult : Prop :=
  ∀ s : State, Ready s →
    ∃ u, Answers (exec .updateAll s) u ∧ Pushed s.pix s u ∧ SameOutside s u

/-- TEARDOWN (42_commands.md R149): every pixel off, the full push, both lines released, RELEASED, OK, and
every command after it NOT_READY; in any other lifecycle state, NOT_READY and nothing else. The record of the two releases
and its order, data before clock, are the model's choice (log 11). -/
def Obligations.TeardownResult : Prop :=
  ∀ s : State, s.busy = false →
    (s.life = .ready → ∃ u, Answers (exec .teardown s) u ∧ Pushed (Vector.replicate 8 ⟨0, 0#8, 0#8, 0#8⟩) s u ∧
      u.life = .released ∧ u.ownDat = false ∧ u.ownClk = false ∧
      u.sinkCalls = s.sinkCalls ++ [.release .dat, .release .clk] ∧ u.callers = s.callers ∧ u.turns = s.turns ∧
      u.grain = s.grain ∧ ∀ i : Instr, Answers (exec i u) { u with status := Status.notReady }) ∧
    (s.life ≠ .ready → Answers (exec .teardown s) { s with status := Status.notReady })

/-- The eight reserved opcodes, accepted in READY, complete with ILLEGAL_COMMAND and change nothing but STATUS
(30_encoding.md R78, 60_exceptions.md R205). -/
def Obligations.ReservedOpcodesAreIllegal : Prop :=
  (∀ (s : State) (i : Instr), Ready s →
    i ∈ [.reserved0, .reserved8, .reserved9, .reservedA, .reservedB, .reservedC, .reservedD, .reservedE] →
    Answers (exec i s) { s with status := Status.illegalCommand }) ∧
  (∀ (s : State) (w : Word), Ready s → opcReserved w →
    Answers (exec (decode w) s) { s with status := Status.illegalCommand })

/-- Any command accepted while LIFE is not READY ends with NOT_READY and has no other effect (60_exceptions.md R206). -/
def Obligations.NotReadyRejectsEveryCommand : Prop :=
  ∀ (s : State) (i : Instr), s.busy = false → s.life ≠ .ready →
    Answers (exec i s) { s with status := Status.notReady }

/-- Of several failing checks the first in the order lifecycle, opcode, index, value wins, on every word; and setFromHex
reports a bad format before a bad brightness (60_exceptions.md R209). -/
def Obligations.FirstFailingCheckWins : Prop :=
  (∀ (s : State) (w : Word), s.busy = false → ∃ u, Answers (exec (decode w) s) u ∧
    u.status = (if s.life ≠ .ready then 6#3 else if opcReserved w then 5#3 else if indexBad w then 3#3
      else if valueBad w then 1#3 else 0#3)) ∧
  (∀ (p : Pixel) (str : List Char) (bri : Rat), p.setFromHex str 0 = .error .format →
    p.setFromHex str bri = .error .format)

/-- A command that ends with any status other than OK has changed STATUS only (42_commands.md R152). -/
def Obligations.ErrorsChangeOnlyStatus : Prop :=
  ∀ (i : Instr) (s u : State), s.busy = false → Answers (exec i s) u → u.status ≠ Status.ok →
    u = { s with status := u.status }

/-- Every command accepted by an idle block completes: a next state, not busy, one of the five statuses a command can report,
and its line writes are none or one whole push of the pixels it leaves (20_memory.md R67, R63). -/
def Obligations.EveryCommandCompletes : Prop :=
  ∀ (i : Instr) (s : State), s.busy = false → ∃ u, Answers (exec i s) u ∧ u.busy = false ∧
    u.status ∈ [Status.ok, Status.rangeError, Status.indexError, Status.illegalCommand, Status.notReady] ∧
    (u.trace = s.trace ∧ u.dat = s.dat ∧ u.clk = s.clk ∨
      u.trace = s.trace ++ pushEvents (frameBytes u.pix) ∧ u.status = Status.ok)

/-- A word presented while BUSY = 1 is not accepted and does not affect the running command: as a step the caller waits, its
word and its turn stay, and the push goes on; as a meaning it changes nothing (70_reset_and_hazards.md R241; that `exec`
answers the unchanged state is the model's choice, log 8). -/
def Obligations.BusyBlockAcceptsNoWord : Prop :=
  (∀ (s : State) (k : Nat) (rest : List Turn), s.busy = true → s.turns = .caller k :: rest →
    (∀ t, Answers (step s) t → t.callers = s.callers ∧ t.turns = s.turns ∧ t.pix = s.pix) ∧
    (∀ t, Answers (step { s with turns := [] }) t → Answers (step s) { t with turns := s.turns })) ∧
  (∀ (i : Instr) (s : State), s.busy = true → Answers (exec i s) s)

/-! ## Construction and the outside world -/

/-- Construction (70_reset_and_hazards.md R230), from an idle block outside READY. As one step: with both lines granted the
pixels are off, the lines are owned and have sent the all-off frame, READY and OK; with a line refused no line write is made,
no line is kept, FAILED and HW_ACQUISITION_ERROR; the clock line is not requested when the data line is refused, and the data
line is released when the clock line is refused. One line write a step: with both lines granted the first step leaves the
draws on the lines without a trace event and stands before the push of the all-off frame. The record of the calls on the line
sinks, and in it the order of the two set-output calls, are the model's choice (log 11); the order of the two acquisitions and
of the release after a refused clock line is R230's. -/
def Obligations.ConstructResult : Prop :=
  (∀ (s : State) (p : Platform) (rest : List Turn), Inv s → s.busy = false → s.life ≠ .ready → s.grain = .command →
    s.turns = .construct p :: rest → ∃ u, Answers (step s) u ∧
      u.pix = Vector.replicate 8 ⟨0, 0#8, 0#8, 0#8⟩ ∧ u.busy = false ∧ u.phase = .idle ∧ u.job = none ∧
      u.callers = s.callers ∧ u.turns = rest ∧ u.grain = s.grain ∧
      (p.grantDat = true → p.grantClk = true →
        u.life = .ready ∧ u.status = Status.ok ∧ u.ownDat = true ∧ u.ownClk = true ∧
        u.trace = s.trace ++ pushEvents (frameBytes (Vector.replicate 8 ⟨0, 0#8, 0#8, 0#8⟩)) ∧
        u.dat = false ∧ u.clk = false ∧
        u.sinkCalls = s.sinkCalls ++ [.acquire .dat true, .acquire .clk true, .setOutput .dat, .setOutput .clk]) ∧
      ((p.grantDat = false ∨ p.grantClk = false) →
        u.life = .failed ∧ u.status = Status.hwAcquisitionError ∧ u.ownDat = false ∧ u.ownClk = false ∧
        u.trace = s.trace ∧ u.dat = s.dat ∧ u.clk = s.clk ∧
        u.cnt = 0 ∧ u.pixi = 0 ∧ u.byti = 0 ∧ u.biti = 0 ∧ u.shr = 0#8 ∧ u.sub = .setd ∧
        u.snap = Vector.replicate 32 0#8 ∧
        u.sinkCalls = s.sinkCalls ++ (if p.grantDat = true then [.acquire .dat true, .acquire .clk false, .release .dat]
          else [.acquire .dat false]))) ∧
  (∀ (s : State) (p : Platform) (rest : List Turn), s.busy = false → s.life ≠ .ready → s.grain = .lineWrite →
    s.turns = .construct p :: rest → p.grantDat = true → p.grantClk = true → ∃ u, Answers (step s) u ∧
      u.busy = true ∧ u.pix = Vector.replicate 8 ⟨0, 0#8, 0#8, 0#8⟩ ∧ u.snap = frameBytes u.pix ∧
      u.ownDat = true ∧ u.ownClk = true ∧ u.dat = p.initDat ∧ u.clk = p.initClk ∧ u.trace = s.trace ∧
      u.life = s.life ∧ u.status = s.status ∧ pendingWrites u = pushEvents (frameBytes u.pix))

/-- CONSTRUCT in READY or while BUSY has no meaning and is refused (70_reset_and_hazards.md R231). -/
def Obligations.ConstructRefusedWhileLive : Prop :=
  ∀ (s : State) (p : Platform) (rest : List Turn), s.turns = .construct p :: rest →
    (s.busy = true → step s = .refused .constructWhileBusy) ∧
    (s.busy = false → s.life = .ready → step s = .refused .constructWhileReady)

/-- A line write by another agent while the block is READY, during a push or between commands, is refused, whichever line
it is (70_reset_and_hazards.md R240). -/
def Obligations.ForeignLineWriteRefusedInReady : Prop :=
  ∀ (s : State) (l : Line) (v : Level) (rest : List Turn), Inv s → s.turns = .foreignWrite l v :: rest →
    s.life = .ready → step s = .refused .foreignLineWrite

/-- Outside READY: a foreign line write during the push of construction, when the lines are owned, is refused; between
commands, where no line is held, it changes nothing of the block (60_exceptions.md section 5; both are the model's choice,
log 9). -/
def Obligations.ForeignLineWriteOutsideReady : Prop :=
  ∀ (s : State) (l : Line) (v : Level) (rest : List Turn), Inv s → s.turns = .foreignWrite l v :: rest →
    s.life ≠ .ready →
    (s.busy = true → step s = .refused .foreignLineWrite) ∧
    (s.busy = false → step s = .next { s with turns := rest })

/-- Construction from power-on with both lines granted reaches the state after reset, for every number of host callers and
whatever the two draws are; and `State.reset`, `State.powerOn` are those with one caller (log 2, log 3, log 7, log 11,
log 25). -/
def Obligations.PowerOnConstructReachesReset : Prop :=
  (∀ (hosts : Nat) (d c : Level),
    step { State.powerOnFor hosts with turns := [.construct ⟨true, true, d, c⟩] } = .next (State.resetFor hosts)) ∧
  State.powerOn = State.powerOnFor 1 ∧ State.reset = State.resetFor 1

/-- For every number of host callers the reset state holds the values of the spec's table, the trace of the initial all-off
push whole, event by event, and a failed construction from power-on those of the sentence after it (10_state.md section 6,
from R25, R27, R29, R33 and 70_reset_and_hazards.md R230; that HOSTS is an argument of the state is 00_scope.md R8). -/
def Obligations.ResetValues : Prop :=
  State.reset = State.resetFor 1 ∧ State.powerOn = State.powerOnFor 1 ∧ ∀ hosts : Nat,
    (∀ (j : Nat) (h : j < 8), (State.resetFor hosts).pix[j] = ⟨0, 0#8, 0#8, 0#8⟩) ∧
    (State.resetFor hosts).life = .ready ∧ (State.resetFor hosts).status = 0#3 ∧ (State.resetFor hosts).busy = false ∧
    (State.resetFor hosts).phase = .idle ∧ (State.resetFor hosts).ownDat = true ∧ (State.resetFor hosts).ownClk = true ∧
    (State.resetFor hosts).dat = false ∧ (State.resetFor hosts).clk = false ∧
    (State.resetFor hosts).trace = pushEvents (frameBytes (Vector.replicate 8 ⟨0, 0#8, 0#8, 0#8⟩)) ∧
    (State.resetFor hosts).trace.length = 905 ∧
    (∀ e : Nat, (State.resetFor hosts).trace[e]? = eventAt (Vector.replicate 8 ⟨0, 0#8, 0#8, 0#8⟩) e) ∧
    (State.resetFor hosts).hosts = hosts ∧
    ∀ p : Platform, (p.grantDat && p.grantClk) = false →
      ∃ u, Answers (step { State.powerOnFor hosts with turns := [.construct p] }) u ∧ u.life = .failed ∧ u.status = 4#3 ∧
        u.ownDat = false ∧ u.ownClk = false ∧ u.trace = [] ∧ u.hosts = hosts ∧
        ∀ (j : Nat) (h : j < 8), u.pix[j] = ⟨0, 0#8, 0#8, 0#8⟩

/-! ## Rules of the whole machine -/

/-- The invariant and the grouping of the trace hold at reset and at power-on, for every number of host callers from 1 on
(00_scope.md R8). That the pixels are legal at power-on rests on the model's choice of power-on `PIX`, all off (log 7). -/
def Obligations.InvariantHoldsAtReset : Prop :=
  Inv State.reset ∧ TraceGrouped State.reset ∧ Inv State.powerOn ∧ TraceGrouped State.powerOn ∧
  ∀ hosts : Nat, 1 ≤ hosts →
    Inv (State.resetFor hosts) ∧ TraceGrouped (State.resetFor hosts) ∧
    Inv (State.powerOnFor hosts) ∧ TraceGrouped (State.powerOnFor hosts)

/-- Every step keeps the invariant of the block: legal pixels, sequencer in a row of its table, ownership exactly in READY or
during a push, clock low between commands, the snapshot equal to the frame of PIX, HOSTS at least 1. -/
def Obligations.StepKeepsTheInvariant : Prop :=
  ∀ s t : State, Inv s → Answers (step s) t → Inv t

/-- Pushes never interleave: every step keeps the trace, with the writes the running push has still to make, a row of whole
905-event pushes (20_memory.md R66; 43_sequencer.md section 2). -/
def Obligations.StepKeepsTheTraceGrouped : Prop :=
  ∀ s t : State, Inv s → TraceGrouped s → Answers (step s) t → TraceGrouped t

/-- Every run of any length from a state of the invariant with its trace well grouped is safe: each state it passes is such a
state (60_exceptions.md section 6; Sys2Proof.Safety.SafeRun). -/
def Obligations.EveryRunIsSafe : Prop :=
  ∀ (n : Nat) (s : State), Inv s → TraceGrouped s → SafeRun n s

/-- The trace holds every line write since power-on: no step takes one away or changes one (10_state.md R34). -/
def Obligations.TraceOnlyGrows : Prop :=
  ∀ s t : State, Answers (step s) t → ∃ es, t.trace = s.trace ++ es

/-- While the block does not own a line no command writes one (10_state.md R33). -/
def Obligations.CommandsWriteOnlyOwnedLines : Prop :=
  ∀ (i : Instr) (s u : State), Inv s → Answers (exec i s) u → (u.trace ≠ s.trace ∨ u.dat ≠ s.dat ∨ u.clk ≠ s.clk) →
    s.ownDat = true ∧ s.ownClk = true

/-- LIFE changes by a command only at TEARDOWN, from READY to RELEASED; ownership and the sink calls likewise
(10_state.md R27, 42_commands.md R149). -/
def Obligations.OnlyTeardownLeavesReady : Prop :=
  ∀ (i : Instr) (s u : State), s.busy = false → Answers (exec i s) u →
    SameOutside s u ∨
    (i = .teardown ∧ s.life = .ready ∧ u.life = .released ∧ u.ownDat = false ∧ u.ownClk = false)

/-- No step produces the status codes FORMAT_ERROR or 7, and none but construction's HW_ACQUISITION_ERROR
(60_exceptions.md R200, R202, R204). -/
def Obligations.StatusCodesAStepCanProduce : Prop :=
  ∀ s t : State, Answers (step s) t → t.status ≠ s.status →
    t.status ≠ 2#3 ∧ t.status ≠ 7#3 ∧ (t.status = 4#3 → ∃ p rest, s.turns = .construct p :: rest)

/-- Each caller's own commands keep their order: a step leaves a caller's queue as it is or takes its first word, and takes
from one caller at most (20_memory.md R62). -/
def Obligations.CallersKeepTheirOrder : Prop :=
  ∀ s t : State, Answers (step s) t → t.callers.length = s.callers.length ∧
    ∃ k : Nat, (∀ j : Nat, j ≠ k → t.callers[j]? = s.callers[j]?) ∧
      (t.callers[k]? = s.callers[k]? ∨ ∃ w ws, s.callers[k]? = some (w :: ws) ∧ t.callers[k]? = some ws)

/-- A pixel command writes only the field it names of the pixels it targets: every other field of every pixel is as before,
whatever the word, the state and the outcome (40_pixel_ops.md R108, 42_commands.md R150). -/
def Obligations.SetCommandsWriteOneFieldOnly : Prop :=
  ∀ (s u : State) (t : Target) (v : Int) (push : Bool) (j : Nat) (h : j < 8),
    (Answers (exec (.setBrightness t v push) s) u → u.pix[j] = { s.pix[j] with bri := u.pix[j].bri }) ∧
    (Answers (exec (.setRed t v push) s) u → u.pix[j] = { s.pix[j] with red := u.pix[j].red }) ∧
    (Answers (exec (.setGreen t v push) s) u → u.pix[j] = { s.pix[j] with green := u.pix[j].green }) ∧
    (Answers (exec (.setBlue t v push) s) u → u.pix[j] = { s.pix[j] with blue := u.pix[j].blue })

/-- SET_PIXEL for one caller: its five commands write all four fields of the targeted pixels and put one frame, the final
one, on the wire; COMMIT is UPDATE_ALL (30_encoding.md R81, 42_commands.md R151). -/
def Obligations.SetPixelSendsOneFrame : Prop :=
  (∀ (s : State) (t : Target) (r g b percent : Int), Ready s → LegalTarget t → 0 ≤ r → r ≤ 255 → 0 ≤ g → g ≤ 255 →
    0 ≤ b → b ≤ 255 → 0 ≤ percent → percent ≤ 100 →
    ∃ px u, Written t (fun _ => ⟨(percent : Rat) / 100, BitVec.ofInt 8 r, BitVec.ofInt 8 g, BitVec.ofInt 8 b⟩) s.pix px ∧
      Answers (runAll (Pseudo.setPixel t r g b percent).expand s) u ∧ Pushed px s u ∧ SameOutside s u) ∧
  Pseudo.commit.expand = [.updateAll]

/-- Host commands can only produce brightness values p/100 with p in 0..100: every step keeps that every brightness is one
(10_state.md section 1, from 42_commands.md R144, 40_pixel_ops.md R106, R107). -/
def Obligations.StepKeepsBrightnessPercents : Prop :=
  ∀ s t : State, (∀ (j : Nat) (h : j < 8), ∃ p : Nat, p ≤ 100 ∧ s.pix[j].bri = (p : Rat) / 100) → Answers (step s) t →
    ∀ (j : Nat) (h : j < 8), ∃ p : Nat, p ≤ 100 ∧ t.pix[j].bri = (p : Rat) / 100

/-- A run that is over stays over: with no command running, no word left to submit and the sequencer idle, whatever turns of
callers and waits are left change nothing that can be observed (92_eei_decisions.md D24, 60_exceptions.md R218; that the
turn of a caller without a word passes is the model's choice, log 4). -/
def Obligations.QuiescentRunIsOver : Prop :=
  ∀ s : State, s.quiescent = true → waitsPolitely s.turns = true →
    ∃ t, Answers (step s) t ∧ t.observe = s.observe ∧ t.quiescent = true
end

