-- ==== Sys2Proof/Laws/State.lean ====
section
/-! SUPPORT. What each field of the state is after each shared operation: one lemma per field per update, so that no later
proof unfolds a record update. -/

namespace Sys2Proof.Laws

open Sys2Proof.Machine

/-- `HOSTS` is the number of callers' queues (00_scope.md R8), so whatever keeps that list's length keeps it. -/
@[simp] theorem hosts_eq_length (s : State) : s.hosts = s.callers.length := rfl

@[simp] theorem resetFor_callers (hosts : Nat) : (State.resetFor hosts).callers = List.replicate hosts [] := rfl
@[simp] theorem powerOnFor_callers (hosts : Nat) : (State.powerOnFor hosts).callers = List.replicate hosts [] := rfl

variable (s : State)

/-! ### lineWrites -/

@[simp] theorem lineWrites_pix (es : List LineEvent) : (lineWrites es s).pix = s.pix := rfl
@[simp] theorem lineWrites_life (es : List LineEvent) : (lineWrites es s).life = s.life := rfl
@[simp] theorem lineWrites_status (es : List LineEvent) : (lineWrites es s).status = s.status := rfl
@[simp] theorem lineWrites_busy (es : List LineEvent) : (lineWrites es s).busy = s.busy := rfl
@[simp] theorem lineWrites_phase (es : List LineEvent) : (lineWrites es s).phase = s.phase := rfl
@[simp] theorem lineWrites_cnt (es : List LineEvent) : (lineWrites es s).cnt = s.cnt := rfl
@[simp] theorem lineWrites_pixi (es : List LineEvent) : (lineWrites es s).pixi = s.pixi := rfl
@[simp] theorem lineWrites_byti (es : List LineEvent) : (lineWrites es s).byti = s.byti := rfl
@[simp] theorem lineWrites_biti (es : List LineEvent) : (lineWrites es s).biti = s.biti := rfl
@[simp] theorem lineWrites_shr (es : List LineEvent) : (lineWrites es s).shr = s.shr := rfl
@[simp] theorem lineWrites_sub (es : List LineEvent) : (lineWrites es s).sub = s.sub := rfl
@[simp] theorem lineWrites_snap (es : List LineEvent) : (lineWrites es s).snap = s.snap := rfl
@[simp] theorem lineWrites_dat (es : List LineEvent) : (lineWrites es s).dat = levelAfter .dat es s.dat := rfl
@[simp] theorem lineWrites_clk (es : List LineEvent) : (lineWrites es s).clk = levelAfter .clk es s.clk := rfl
@[simp] theorem lineWrites_ownDat (es : List LineEvent) : (lineWrites es s).ownDat = s.ownDat := rfl
@[simp] theorem lineWrites_ownClk (es : List LineEvent) : (lineWrites es s).ownClk = s.ownClk := rfl
@[simp] theorem lineWrites_trace (es : List LineEvent) : (lineWrites es s).trace = s.trace ++ es := rfl
@[simp] theorem lineWrites_job (es : List LineEvent) : (lineWrites es s).job = s.job := rfl
@[simp] theorem lineWrites_sinkCalls (es : List LineEvent) : (lineWrites es s).sinkCalls = s.sinkCalls := rfl
@[simp] theorem lineWrites_callers (es : List LineEvent) : (lineWrites es s).callers = s.callers := rfl
@[simp] theorem lineWrites_turns (es : List LineEvent) : (lineWrites es s).turns = s.turns := rfl
@[simp] theorem lineWrites_grain (es : List LineEvent) : (lineWrites es s).grain = s.grain := rfl

/-! ### reject -/

@[simp] theorem reject_pix (code : BitVec 3) : (reject code s).pix = s.pix := rfl
@[simp] theorem reject_life (code : BitVec 3) : (reject code s).life = s.life := rfl
@[simp] theorem reject_status (code : BitVec 3) : (reject code s).status = code := rfl
@[simp] theorem reject_busy (code : BitVec 3) : (reject code s).busy = false := rfl
@[simp] theorem reject_phase (code : BitVec 3) : (reject code s).phase = s.phase := rfl
@[simp] theorem reject_cnt (code : BitVec 3) : (reject code s).cnt = s.cnt := rfl
@[simp] theorem reject_pixi (code : BitVec 3) : (reject code s).pixi = s.pixi := rfl
@[simp] theorem reject_byti (code : BitVec 3) : (reject code s).byti = s.byti := rfl
@[simp] theorem reject_biti (code : BitVec 3) : (reject code s).biti = s.biti := rfl
@[simp] theorem reject_shr (code : BitVec 3) : (reject code s).shr = s.shr := rfl
@[simp] theorem reject_sub (code : BitVec 3) : (reject code s).sub = s.sub := rfl
@[simp] theorem reject_snap (code : BitVec 3) : (reject code s).snap = s.snap := rfl
@[simp] theorem reject_dat (code : BitVec 3) : (reject code s).dat = s.dat := rfl
@[simp] theorem reject_clk (code : BitVec 3) : (reject code s).clk = s.clk := rfl
@[simp] theorem reject_ownDat (code : BitVec 3) : (reject code s).ownDat = s.ownDat := rfl
@[simp] theorem reject_ownClk (code : BitVec 3) : (reject code s).ownClk = s.ownClk := rfl
@[simp] theorem reject_trace (code : BitVec 3) : (reject code s).trace = s.trace := rfl
@[simp] theorem reject_job (code : BitVec 3) : (reject code s).job = s.job := rfl
@[simp] theorem reject_sinkCalls (code : BitVec 3) : (reject code s).sinkCalls = s.sinkCalls := rfl
@[simp] theorem reject_callers (code : BitVec 3) : (reject code s).callers = s.callers := rfl
@[simp] theorem reject_turns (code : BitVec 3) : (reject code s).turns = s.turns := rfl
@[simp] theorem reject_grain (code : BitVec 3) : (reject code s).grain = s.grain := rfl

/-! ### succeed -/

@[simp] theorem succeed_pix : (succeed s).pix = s.pix := rfl
@[simp] theorem succeed_life : (succeed s).life = s.life := rfl
@[simp] theorem succeed_status : (succeed s).status = Status.ok := rfl
@[simp] theorem succeed_busy : (succeed s).busy = false := rfl
@[simp] theorem succeed_phase : (succeed s).phase = s.phase := rfl
@[simp] theorem succeed_cnt : (succeed s).cnt = s.cnt := rfl
@[simp] theorem succeed_pixi : (succeed s).pixi = s.pixi := rfl
@[simp] theorem succeed_byti : (succeed s).byti = s.byti := rfl
@[simp] theorem succeed_biti : (succeed s).biti = s.biti := rfl
@[simp] theorem succeed_shr : (succeed s).shr = s.shr := rfl
@[simp] theorem succeed_sub : (succeed s).sub = s.sub := rfl
@[simp] theorem succeed_snap : (succeed s).snap = s.snap := rfl
@[simp] theorem succeed_dat : (succeed s).dat = s.dat := rfl
@[simp] theorem succeed_clk : (succeed s).clk = s.clk := rfl
@[simp] theorem succeed_ownDat : (succeed s).ownDat = s.ownDat := rfl
@[simp] theorem succeed_ownClk : (succeed s).ownClk = s.ownClk := rfl
@[simp] theorem succeed_trace : (succeed s).trace = s.trace := rfl
@[simp] theorem succeed_job : (succeed s).job = s.job := rfl
@[simp] theorem succeed_sinkCalls : (succeed s).sinkCalls = s.sinkCalls := rfl
@[simp] theorem succeed_callers : (succeed s).callers = s.callers := rfl
@[simp] theorem succeed_turns : (succeed s).turns = s.turns := rfl
@[simp] theorem succeed_grain : (succeed s).grain = s.grain := rfl

/-! ### startPush -/

@[simp] theorem startPush_pix (job : Job) : (startPush job s).pix = s.pix := rfl
@[simp] theorem startPush_life (job : Job) : (startPush job s).life = s.life := rfl
@[simp] theorem startPush_status (job : Job) : (startPush job s).status = s.status := rfl
@[simp] theorem startPush_busy (job : Job) : (startPush job s).busy = s.busy := rfl
@[simp] theorem startPush_phase (job : Job) : (startPush job s).phase = .lock := rfl
@[simp] theorem startPush_cnt (job : Job) : (startPush job s).cnt = lockPulses := rfl
@[simp] theorem startPush_pixi (job : Job) : (startPush job s).pixi = s.pixi := rfl
@[simp] theorem startPush_byti (job : Job) : (startPush job s).byti = s.byti := rfl
@[simp] theorem startPush_biti (job : Job) : (startPush job s).biti = s.biti := rfl
@[simp] theorem startPush_shr (job : Job) : (startPush job s).shr = s.shr := rfl
@[simp] theorem startPush_sub (job : Job) : (startPush job s).sub = .setd := rfl
@[simp] theorem startPush_snap (job : Job) : (startPush job s).snap = frameBytes s.pix := rfl
@[simp] theorem startPush_dat (job : Job) : (startPush job s).dat = s.dat := rfl
@[simp] theorem startPush_clk (job : Job) : (startPush job s).clk = s.clk := rfl
@[simp] theorem startPush_ownDat (job : Job) : (startPush job s).ownDat = s.ownDat := rfl
@[simp] theorem startPush_ownClk (job : Job) : (startPush job s).ownClk = s.ownClk := rfl
@[simp] theorem startPush_trace (job : Job) : (startPush job s).trace = s.trace := rfl
@[simp] theorem startPush_job (job : Job) : (startPush job s).job = some job := rfl
@[simp] theorem startPush_sinkCalls (job : Job) : (startPush job s).sinkCalls = s.sinkCalls := rfl
@[simp] theorem startPush_callers (job : Job) : (startPush job s).callers = s.callers := rfl
@[simp] theorem startPush_turns (job : Job) : (startPush job s).turns = s.turns := rfl
@[simp] theorem startPush_grain (job : Job) : (startPush job s).grain = s.grain := rfl

/-! ### runPush -/

@[simp] theorem runPush_pix : (runPush s).pix = s.pix := rfl
@[simp] theorem runPush_life : (runPush s).life = s.life := rfl
@[simp] theorem runPush_status : (runPush s).status = s.status := rfl
@[simp] theorem runPush_busy : (runPush s).busy = s.busy := rfl
@[simp] theorem runPush_phase : (runPush s).phase = .idle := rfl
@[simp] theorem runPush_cnt : (runPush s).cnt = 0 := rfl
@[simp] theorem runPush_pixi : (runPush s).pixi = 7 := rfl
@[simp] theorem runPush_byti : (runPush s).byti = 3 := rfl
@[simp] theorem runPush_biti : (runPush s).biti = 0 := rfl
@[simp] theorem runPush_shr : (runPush s).shr = 0#8 := rfl
@[simp] theorem runPush_sub : (runPush s).sub = .clkl := rfl
@[simp] theorem runPush_snap : (runPush s).snap = s.snap := rfl
@[simp] theorem runPush_dat : (runPush s).dat = levelAfter .dat (pushEvents s.snap) s.dat := rfl
@[simp] theorem runPush_clk : (runPush s).clk = levelAfter .clk (pushEvents s.snap) s.clk := rfl
@[simp] theorem runPush_ownDat : (runPush s).ownDat = s.ownDat := rfl
@[simp] theorem runPush_ownClk : (runPush s).ownClk = s.ownClk := rfl
@[simp] theorem runPush_trace : (runPush s).trace = s.trace ++ pushEvents s.snap := rfl
@[simp] theorem runPush_job : (runPush s).job = s.job := rfl
@[simp] theorem runPush_sinkCalls : (runPush s).sinkCalls = s.sinkCalls := rfl
@[simp] theorem runPush_callers : (runPush s).callers = s.callers := rfl
@[simp] theorem runPush_turns : (runPush s).turns = s.turns := rfl
@[simp] theorem runPush_grain : (runPush s).grain = s.grain := rfl

/-! ### updatePixels -/

@[simp] theorem updatePixels_pix (t : Target) (f : Pixel → Pixel) : (updatePixels t f s).pix = s.pix.update t f := rfl
@[simp] theorem updatePixels_life (t : Target) (f : Pixel → Pixel) : (updatePixels t f s).life = s.life := rfl
@[simp] theorem updatePixels_status (t : Target) (f : Pixel → Pixel) : (updatePixels t f s).status = s.status := rfl
@[simp] theorem updatePixels_busy (t : Target) (f : Pixel → Pixel) : (updatePixels t f s).busy = s.busy := rfl
@[simp] theorem updatePixels_phase (t : Target) (f : Pixel → Pixel) : (updatePixels t f s).phase = s.phase := rfl
@[simp] theorem updatePixels_cnt (t : Target) (f : Pixel → Pixel) : (updatePixels t f s).cnt = s.cnt := rfl
@[simp] theorem updatePixels_pixi (t : Target) (f : Pixel → Pixel) : (updatePixels t f s).pixi = s.pixi := rfl
@[simp] theorem updatePixels_byti (t : Target) (f : Pixel → Pixel) : (updatePixels t f s).byti = s.byti := rfl
@[simp] theorem updatePixels_biti (t : Target) (f : Pixel → Pixel) : (updatePixels t f s).biti = s.biti := rfl
@[simp] theorem updatePixels_shr (t : Target) (f : Pixel → Pixel) : (updatePixels t f s).shr = s.shr := rfl
@[simp] theorem updatePixels_sub (t : Target) (f : Pixel → Pixel) : (updatePixels t f s).sub = s.sub := rfl
@[simp] theorem updatePixels_snap (t : Target) (f : Pixel → Pixel) : (updatePixels t f s).snap = s.snap := rfl
@[simp] theorem updatePixels_dat (t : Target) (f : Pixel → Pixel) : (updatePixels t f s).dat = s.dat := rfl
@[simp] theorem updatePixels_clk (t : Target) (f : Pixel → Pixel) : (updatePixels t f s).clk = s.clk := rfl
@[simp] theorem updatePixels_ownDat (t : Target) (f : Pixel → Pixel) : (updatePixels t f s).ownDat = s.ownDat := rfl
@[simp] theorem updatePixels_ownClk (t : Target) (f : Pixel → Pixel) : (updatePixels t f s).ownClk = s.ownClk := rfl
@[simp] theorem updatePixels_trace (t : Target) (f : Pixel → Pixel) : (updatePixels t f s).trace = s.trace := rfl
@[simp] theorem updatePixels_job (t : Target) (f : Pixel → Pixel) : (updatePixels t f s).job = s.job := rfl
@[simp] theorem updatePixels_sinkCalls (t : Target) (f : Pixel → Pixel) : (updatePixels t f s).sinkCalls = s.sinkCalls := rfl
@[simp] theorem updatePixels_callers (t : Target) (f : Pixel → Pixel) : (updatePixels t f s).callers = s.callers := rfl
@[simp] theorem updatePixels_turns (t : Target) (f : Pixel → Pixel) : (updatePixels t f s).turns = s.turns := rfl
@[simp] theorem updatePixels_grain (t : Target) (f : Pixel → Pixel) : (updatePixels t f s).grain = s.grain := rfl

/-! ### loadByte -/

@[simp] theorem loadByte_pix (j : Fin 32) : (loadByte j s).pix = s.pix := rfl
@[simp] theorem loadByte_life (j : Fin 32) : (loadByte j s).life = s.life := rfl
@[simp] theorem loadByte_status (j : Fin 32) : (loadByte j s).status = s.status := rfl
@[simp] theorem loadByte_busy (j : Fin 32) : (loadByte j s).busy = s.busy := rfl
@[simp] theorem loadByte_phase (j : Fin 32) : (loadByte j s).phase = .data := rfl
@[simp] theorem loadByte_cnt (j : Fin 32) : (loadByte j s).cnt = s.cnt := rfl
@[simp] theorem loadByte_pixi (j : Fin 32) : (loadByte j s).pixi = ⟨j.val / 4, by omega⟩ := rfl
@[simp] theorem loadByte_byti (j : Fin 32) : (loadByte j s).byti = ⟨j.val % 4, by omega⟩ := rfl
@[simp] theorem loadByte_biti (j : Fin 32) : (loadByte j s).biti = 0 := rfl
@[simp] theorem loadByte_shr (j : Fin 32) : (loadByte j s).shr = s.snap[j.val] := rfl
@[simp] theorem loadByte_sub (j : Fin 32) : (loadByte j s).sub = .setd := rfl
@[simp] theorem loadByte_snap (j : Fin 32) : (loadByte j s).snap = s.snap := rfl
@[simp] theorem loadByte_dat (j : Fin 32) : (loadByte j s).dat = s.dat := rfl
@[simp] theorem loadByte_clk (j : Fin 32) : (loadByte j s).clk = s.clk := rfl
@[simp] theorem loadByte_ownDat (j : Fin 32) : (loadByte j s).ownDat = s.ownDat := rfl
@[simp] theorem loadByte_ownClk (j : Fin 32) : (loadByte j s).ownClk = s.ownClk := rfl
@[simp] theorem loadByte_trace (j : Fin 32) : (loadByte j s).trace = s.trace := rfl
@[simp] theorem loadByte_job (j : Fin 32) : (loadByte j s).job = s.job := rfl
@[simp] theorem loadByte_sinkCalls (j : Fin 32) : (loadByte j s).sinkCalls = s.sinkCalls := rfl
@[simp] theorem loadByte_callers (j : Fin 32) : (loadByte j s).callers = s.callers := rfl
@[simp] theorem loadByte_turns (j : Fin 32) : (loadByte j s).turns = s.turns := rfl
@[simp] theorem loadByte_grain (j : Fin 32) : (loadByte j s).grain = s.grain := rfl

/-! ### clearForConstruct -/

@[simp] theorem clearForConstruct_pix : (clearForConstruct s).pix = PixelFile.off := rfl
@[simp] theorem clearForConstruct_life : (clearForConstruct s).life = s.life := rfl
@[simp] theorem clearForConstruct_status : (clearForConstruct s).status = s.status := rfl
@[simp] theorem clearForConstruct_busy : (clearForConstruct s).busy = true := rfl
@[simp] theorem clearForConstruct_phase : (clearForConstruct s).phase = .idle := rfl
@[simp] theorem clearForConstruct_cnt : (clearForConstruct s).cnt = 0 := rfl
@[simp] theorem clearForConstruct_pixi : (clearForConstruct s).pixi = 0 := rfl
@[simp] theorem clearForConstruct_byti : (clearForConstruct s).byti = 0 := rfl
@[simp] theorem clearForConstruct_biti : (clearForConstruct s).biti = 0 := rfl
@[simp] theorem clearForConstruct_shr : (clearForConstruct s).shr = 0#8 := rfl
@[simp] theorem clearForConstruct_sub : (clearForConstruct s).sub = .setd := rfl
@[simp] theorem clearForConstruct_snap : (clearForConstruct s).snap = Vector.replicate 32 0#8 := rfl
@[simp] theorem clearForConstruct_dat : (clearForConstruct s).dat = s.dat := rfl
@[simp] theorem clearForConstruct_clk : (clearForConstruct s).clk = s.clk := rfl
@[simp] theorem clearForConstruct_ownDat : (clearForConstruct s).ownDat = s.ownDat := rfl
@[simp] theorem clearForConstruct_ownClk : (clearForConstruct s).ownClk = s.ownClk := rfl
@[simp] theorem clearForConstruct_trace : (clearForConstruct s).trace = s.trace := rfl
@[simp] theorem clearForConstruct_job : (clearForConstruct s).job = none := rfl
@[simp] theorem clearForConstruct_sinkCalls : (clearForConstruct s).sinkCalls = s.sinkCalls := rfl
@[simp] theorem clearForConstruct_callers : (clearForConstruct s).callers = s.callers := rfl
@[simp] theorem clearForConstruct_turns : (clearForConstruct s).turns = s.turns := rfl
@[simp] theorem clearForConstruct_grain : (clearForConstruct s).grain = s.grain := rfl

/-! ### failConstruct -/

@[simp] theorem failConstruct_pix (calls : List SinkCall) : (failConstruct calls s).pix = s.pix := rfl
@[simp] theorem failConstruct_life (calls : List SinkCall) : (failConstruct calls s).life = .failed := rfl
@[simp] theorem failConstruct_status (calls : List SinkCall) : (failConstruct calls s).status = Status.hwAcquisitionError := rfl
@[simp] theorem failConstruct_busy (calls : List SinkCall) : (failConstruct calls s).busy = false := rfl
@[simp] theorem failConstruct_phase (calls : List SinkCall) : (failConstruct calls s).phase = s.phase := rfl
@[simp] theorem failConstruct_cnt (calls : List SinkCall) : (failConstruct calls s).cnt = s.cnt := rfl
@[simp] theorem failConstruct_pixi (calls : List SinkCall) : (failConstruct calls s).pixi = s.pixi := rfl
@[simp] theorem failConstruct_byti (calls : List SinkCall) : (failConstruct calls s).byti = s.byti := rfl
@[simp] theorem failConstruct_biti (calls : List SinkCall) : (failConstruct calls s).biti = s.biti := rfl
@[simp] theorem failConstruct_shr (calls : List SinkCall) : (failConstruct calls s).shr = s.shr := rfl
@[simp] theorem failConstruct_sub (calls : List SinkCall) : (failConstruct calls s).sub = s.sub := rfl
@[simp] theorem failConstruct_snap (calls : List SinkCall) : (failConstruct calls s).snap = s.snap := rfl
@[simp] theorem failConstruct_dat (calls : List SinkCall) : (failConstruct calls s).dat = s.dat := rfl
@[simp] theorem failConstruct_clk (calls : List SinkCall) : (failConstruct calls s).clk = s.clk := rfl
@[simp] theorem failConstruct_ownDat (calls : List SinkCall) : (failConstruct calls s).ownDat = s.ownDat := rfl
@[simp] theorem failConstruct_ownClk (calls : List SinkCall) : (failConstruct calls s).ownClk = s.ownClk := rfl
@[simp] theorem failConstruct_trace (calls : List SinkCall) : (failConstruct calls s).trace = s.trace := rfl
@[simp] theorem failConstruct_job (calls : List SinkCall) : (failConstruct calls s).job = s.job := rfl
@[simp] theorem failConstruct_sinkCalls (calls : List SinkCall) : (failConstruct calls s).sinkCalls = s.sinkCalls ++ calls := rfl
@[simp] theorem failConstruct_callers (calls : List SinkCall) : (failConstruct calls s).callers = s.callers := rfl
@[simp] theorem failConstruct_turns (calls : List SinkCall) : (failConstruct calls s).turns = s.turns := rfl
@[simp] theorem failConstruct_grain (calls : List SinkCall) : (failConstruct calls s).grain = s.grain := rfl

/-! ### takeLines -/

@[simp] theorem takeLines_pix (p : Platform) : (takeLines p s).pix = s.pix := rfl
@[simp] theorem takeLines_life (p : Platform) : (takeLines p s).life = s.life := rfl
@[simp] theorem takeLines_status (p : Platform) : (takeLines p s).status = s.status := rfl
@[simp] theorem takeLines_busy (p : Platform) : (takeLines p s).busy = s.busy := rfl
@[simp] theorem takeLines_phase (p : Platform) : (takeLines p s).phase = s.phase := rfl
@[simp] theorem takeLines_cnt (p : Platform) : (takeLines p s).cnt = s.cnt := rfl
@[simp] theorem takeLines_pixi (p : Platform) : (takeLines p s).pixi = s.pixi := rfl
@[simp] theorem takeLines_byti (p : Platform) : (takeLines p s).byti = s.byti := rfl
@[simp] theorem takeLines_biti (p : Platform) : (takeLines p s).biti = s.biti := rfl
@[simp] theorem takeLines_shr (p : Platform) : (takeLines p s).shr = s.shr := rfl
@[simp] theorem takeLines_sub (p : Platform) : (takeLines p s).sub = s.sub := rfl
@[simp] theorem takeLines_snap (p : Platform) : (takeLines p s).snap = s.snap := rfl
@[simp] theorem takeLines_dat (p : Platform) : (takeLines p s).dat = p.initDat := rfl
@[simp] theorem takeLines_clk (p : Platform) : (takeLines p s).clk = p.initClk := rfl
@[simp] theorem takeLines_ownDat (p : Platform) : (takeLines p s).ownDat = true := rfl
@[simp] theorem takeLines_ownClk (p : Platform) : (takeLines p s).ownClk = true := rfl
@[simp] theorem takeLines_trace (p : Platform) : (takeLines p s).trace = s.trace := rfl
@[simp] theorem takeLines_job (p : Platform) : (takeLines p s).job = s.job := rfl
@[simp] theorem takeLines_sinkCalls (p : Platform) : (takeLines p s).sinkCalls = s.sinkCalls ++ [.acquire .dat true, .acquire .clk true, .setOutput .dat, .setOutput .clk] := rfl
@[simp] theorem takeLines_callers (p : Platform) : (takeLines p s).callers = s.callers := rfl
@[simp] theorem takeLines_turns (p : Platform) : (takeLines p s).turns = s.turns := rfl
@[simp] theorem takeLines_grain (p : Platform) : (takeLines p s).grain = s.grain := rfl

/-! ### lineWrite -/

@[simp] theorem lineWrite_pix (l : Line) (v : Level) : (lineWrite l v s).pix = s.pix := by
  cases l <;> rfl
@[simp] theorem lineWrite_life (l : Line) (v : Level) : (lineWrite l v s).life = s.life := by
  cases l <;> rfl
@[simp] theorem lineWrite_status (l : Line) (v : Level) : (lineWrite l v s).status = s.status := by
  cases l <;> rfl
@[simp] theorem lineWrite_busy (l : Line) (v : Level) : (lineWrite l v s).busy = s.busy := by
  cases l <;> rfl
@[simp] theorem lineWrite_phase (l : Line) (v : Level) : (lineWrite l v s).phase = s.phase := by
  cases l <;> rfl
@[simp] theorem lineWrite_cnt (l : Line) (v : Level) : (lineWrite l v s).cnt = s.cnt := by
  cases l <;> rfl
@[simp] theorem lineWrite_pixi (l : Line) (v : Level) : (lineWrite l v s).pixi = s.pixi := by
  cases l <;> rfl
@[simp] theorem lineWrite_byti (l : Line) (v : Level) : (lineWrite l v s).byti = s.byti := by
  cases l <;> rfl
@[simp] theorem lineWrite_biti (l : Line) (v : Level) : (lineWrite l v s).biti = s.biti := by
  cases l <;> rfl
@[simp] theorem lineWrite_shr (l : Line) (v : Level) : (lineWrite l v s).shr = s.shr := by
  cases l <;> rfl
@[simp] theorem lineWrite_sub (l : Line) (v : Level) : (lineWrite l v s).sub = s.sub := by
  cases l <;> rfl
@[simp] theorem lineWrite_snap (l : Line) (v : Level) : (lineWrite l v s).snap = s.snap := by
  cases l <;> rfl
@[simp] theorem lineWrite_dat (l : Line) (v : Level) : (lineWrite l v s).dat = (if l = .dat then v else s.dat) := by
  cases l <;> rfl
@[simp] theorem lineWrite_clk (l : Line) (v : Level) : (lineWrite l v s).clk = (if l = .clk then v else s.clk) := by
  cases l <;> rfl
@[simp] theorem lineWrite_ownDat (l : Line) (v : Level) : (lineWrite l v s).ownDat = s.ownDat := by
  cases l <;> rfl
@[simp] theorem lineWrite_ownClk (l : Line) (v : Level) : (lineWrite l v s).ownClk = s.ownClk := by
  cases l <;> rfl
@[simp] theorem lineWrite_trace (l : Line) (v : Level) : (lineWrite l v s).trace = s.trace ++ [⟨l, v⟩] := by
  cases l <;> rfl
@[simp] theorem lineWrite_job (l : Line) (v : Level) : (lineWrite l v s).job = s.job := by
  cases l <;> rfl
@[simp] theorem lineWrite_sinkCalls (l : Line) (v : Level) : (lineWrite l v s).sinkCalls = s.sinkCalls := by
  cases l <;> rfl
@[simp] theorem lineWrite_callers (l : Line) (v : Level) : (lineWrite l v s).callers = s.callers := by
  cases l <;> rfl
@[simp] theorem lineWrite_turns (l : Line) (v : Level) : (lineWrite l v s).turns = s.turns := by
  cases l <;> rfl
@[simp] theorem lineWrite_grain (l : Line) (v : Level) : (lineWrite l v s).grain = s.grain := by
  cases l <;> rfl

end Sys2Proof.Laws
end

