-- ==== Sys2Proof/Laws/Lines.lean ====
section
/-! SUPPORT. The line-event lists of a push: lengths, levels, and `lineWrites` as a run of `lineWrite`. -/

namespace Sys2Proof.Laws

open Sys2Proof.Machine

@[simp] theorem levelAfter_nil (l : Line) (v : Level) : levelAfter l [] v = v := rfl

@[simp] theorem levelAfter_cons (l : Line) (e : LineEvent) (es : List LineEvent) (v : Level) :
    levelAfter l (e :: es) v = levelAfter l es (if e.line = l then e.level else v) := rfl

@[simp] theorem levelAfter_append (l : Line) (as bs : List LineEvent) (v : Level) :
    levelAfter l (as ++ bs) v = levelAfter l bs (levelAfter l as v) := by
  simp [levelAfter]

/-- Pulses make no data-line write (43_sequencer.md R172, R176). -/
@[simp] theorem levelAfter_dat_pulses (n : Nat) (v : Level) : levelAfter .dat (pulses n) v = v := by
  induction n with
  | zero => rfl
  | succ n ih => simp [pulses, pulseEvents, ih]

/-- Every pulse ends low (43_sequencer.md R178). -/
theorem levelAfter_clk_pulses (n : Nat) (v : Level) :
    levelAfter .clk (pulses n) v = if n = 0 then v else false := by
  induction n generalizing v with
  | zero => rfl
  | succ n ih => simp [pulses, pulseEvents, ih]

@[simp] theorem pulses_length (n : Nat) : (pulses n).length = 2 * n := by
  induction n with
  | zero => rfl
  | succ n ih => simp [pulses, pulseEvents, ih]; omega

@[simp] theorem shiftOut_length (n : Nat) (x : Byte) : (shiftOut n x).length = 3 * n := by
  induction n generalizing x with
  | zero => rfl
  | succ n ih => simp [shiftOut, bitEvents, pulseEvents, ih]; omega

@[simp] theorem serializeBytes_nil : serializeBytes [] = [] := rfl

@[simp] theorem serializeBytes_cons (b : Byte) (bs : List Byte) :
    serializeBytes (b :: bs) = shiftOut bitsPerByte b ++ serializeBytes bs := by
  simp [serializeBytes]

@[simp] theorem serializeBytes_length (bs : List Byte) : (serializeBytes bs).length = 24 * bs.length := by
  induction bs with
  | nil => rfl
  | cons b bs ih => simp [ih, bitsPerByte]; omega

@[simp] theorem lineWrites_nil (s : State) : lineWrites [] s = s := by
  simp [lineWrites]

/-- A run of line writes is the first write and then the rest (00_scope.md R14). -/
theorem lineWrites_cons (e : LineEvent) (es : List LineEvent) (s : State) :
    lineWrites (e :: es) s = lineWrites es (lineWrite e.line e.level s) := by
  obtain ⟨l, v⟩ := e
  cases l <;> simp [lineWrites, lineWrite]

theorem lineWrites_append (as bs : List LineEvent) (s : State) :
    lineWrites (as ++ bs) s = lineWrites bs (lineWrites as s) := by
  simp [lineWrites]

/-- The data line after a byte's bit-groups holds the last bit sent (43_sequencer.md R173). -/
theorem levelAfter_dat_shiftOut (n : Nat) (x : Byte) (v : Level) (h : n < 8) :
    levelAfter .dat (shiftOut (n + 1) x) v = x.getLsbD (7 - n) := by
  induction n generalizing x v with
  | zero => simp [shiftOut, bitEvents, pulseEvents]
  | succ n ih =>
    have e : shiftOut (n + 1 + 1) x = bitEvents (x.getLsbD 7) ++ shiftOut (n + 1) (x <<< 1) := rfl
    have e2 : 7 - n = 7 - (n + 1) + 1 := by omega
    rw [e, levelAfter_append, ih _ _ (by omega)]
    simp [e2]
    omega

/-- The data line after a push holds bit 0 of the last byte sent (43_sequencer.md R176). -/
theorem levelAfter_dat_push (snap : Vector Byte 32) (v : Level) :
    levelAfter .dat (pushEvents snap) v = snap[31].getLsbD 0 := by
  have hl : snap.toList = snap.toList.take 31 ++ [snap[31]] := by
    conv_lhs => rw [← List.take_append_drop 31 snap.toList]
    congr 1
    rw [List.drop_eq_getElem_cons (by simp)]
    simp
  unfold pushEvents
  rw [hl]
  simp [serializeBytes, bitsPerByte]
  exact levelAfter_dat_shiftOut 7 _ _ (by omega)

/-- The clock is low after a push (43_sequencer.md R170). -/
theorem levelAfter_clk_push (snap : Vector Byte 32) (v : Level) : levelAfter .clk (pushEvents snap) v = false := by
  unfold pushEvents
  simp [levelAfter_clk_pulses, unlockPulses]

end Sys2Proof.Laws
end

