-- ==== Sys2Proof/Laws/Commands.lean ====
section
/-! SUPPORT. What a command can do, said once: `exec` over the common start of a command, the cases of that start, and the
state each way of ending leaves. -/

namespace Sys2Proof.Laws

open Sys2Proof.Machine

/-- Writing `BUSY <- 0` in an idle block changes nothing. -/
theorem clear_busy_of_idle (s : State) (h : s.busy = false) : { s with busy := false } = s := by
  cases s; simp_all

/-- `exec` is the command up to its push, run to completion, for every command. -/
theorem exec_eq_runCommand (i : Instr) (s : State) : exec i s = runCommand (beginInstr i) s := by
  cases i <;> rfl

theorem exec_of_idle (i : Instr) (s : State) (h : s.busy = false) :
    exec i s = .next (complete (beginInstr i s)) := by
  simp [exec_eq_runCommand, runCommand, h]

theorem exec_of_busy (i : Instr) (s : State) (h : s.busy = true) : exec i s = .next s := by
  simp [exec_eq_runCommand, runCommand, h]

theorem accept_of_ready (body : State → State) (s : State) (h : s.life = .ready) :
    accept body s = body { s with busy := true } := by
  simp [accept, h]

theorem accept_of_not_ready (body : State → State) (s : State) (hb : s.busy = false) (h : s.life ≠ .ready) :
    accept body s = { s with status := Status.notReady } := by
  cases s; simp_all [accept, reject]

/-- A command that ends in an error changes STATUS alone (42_commands.md R152). -/
theorem reject_accepted (code : BitVec 3) (s : State) (h : s.busy = false) :
    reject code { s with busy := true } = { s with status := code } := by
  cases s; simp_all [reject]

theorem succeed_accepted (s : State) (t : Target) (f : Pixel → Pixel) (h : s.busy = false) :
    succeed (updatePixels t f { s with busy := true }) =
      { s with pix := s.pix.update t f, status := Status.ok } := by
  cases s; simp_all [succeed, updatePixels]

/-- Nothing is left to run after a command that made no push. -/
theorem complete_of_idle (s : State) (h : s.busy = false) : complete s = s := by
  simp [complete, h]

/-- Every entry after a write to a target (40_pixel_ops.md R108, 42_commands.md R150). -/
@[simp] theorem update_getElem (pix : PixelFile) (t : Target) (f : Pixel → Pixel) (j : Nat) (h : j < 8) :
    (pix.update t f)[j]'h = if targetCovers t j then f (pix[j]'h) else pix[j]'h := by
  simp [PixelFile.update]

/-- A brightness operand is out of range or gives a write; likewise the channel operands below. -/
theorem brightnessWriter_cases (v : Int) :
    brightnessWriter v = .error .range ∨ ∃ f, brightnessWriter v = .ok f := by
  unfold brightnessWriter checkBrightness
  cases brightnessLegal (percentToBrightness v) <;> simp

theorem redWriter_cases (v : Int) : redWriter v = .error .range ∨ ∃ f, redWriter v = .ok f := by
  unfold redWriter checkChannel
  cases channelLegal v <;> simp

theorem greenWriter_cases (v : Int) : greenWriter v = .error .range ∨ ∃ f, greenWriter v = .ok f := by
  unfold greenWriter checkChannel
  cases channelLegal v <;> simp

theorem blueWriter_cases (v : Int) : blueWriter v = .error .range ∨ ∃ f, blueWriter v = .ok f := by
  unfold blueWriter checkChannel
  cases channelLegal v <;> simp

/-- The error codes a command can end with (60_exceptions.md R200). -/
def commandErrors : List (BitVec 3) :=
  [Status.rangeError, Status.indexError, Status.illegalCommand, Status.notReady]

/-- How a command stands after its start `b`, from an idle state `s` in READY or not: ended with an error, ended without a
push, or in the push of an ordinary command. -/
def PlainStart (s b : State) : Prop :=
  (∃ code, code ∈ commandErrors ∧ b = { s with status := code }) ∨
  (s.life = .ready ∧ ∃ t f, b = { s with pix := s.pix.update t f, status := Status.ok }) ∨
  (s.life = .ready ∧ ∃ px, b = startPush .command { s with busy := true, pix := px })

theorem plainStart_withTarget (t : Target) (body : State → State) (s : State) (hb : s.busy = false)
    (hl : s.life = .ready) (h : PlainStart s (body { s with busy := true })) :
    PlainStart s (accept (withTarget t body) s) := by
  rw [accept_of_ready _ _ hl]
  unfold withTarget
  split
  · exact h
  · exact .inl ⟨_, by simp [commandErrors], reject_accepted _ s hb⟩

theorem plainStart_setField (w : Except PixelError (Pixel → Pixel)) (t : Target) (push : Bool) (s : State)
    (hb : s.busy = false) (hl : s.life = .ready) (hw : w = .error .range ∨ ∃ f, w = .ok f) :
    PlainStart s (setField w t push { s with busy := true }) := by
  obtain rfl | ⟨f, rfl⟩ := hw
  · exact .inl ⟨_, by simp [commandErrors, PixelError.status], reject_accepted _ s hb⟩
  · cases push with
    | false => exact .inr (.inl ⟨hl, t, f, succeed_accepted s t f hb⟩)
    | true => exact .inr (.inr ⟨hl, _, rfl⟩)

theorem plainStart_illegal (s : State) (hb : s.busy = false) (hl : s.life = .ready) : PlainStart s (beginIllegal s) := by
  rw [beginIllegal, accept_of_ready _ _ hl]
  exact .inl ⟨_, by simp [commandErrors], reject_accepted _ s hb⟩

/-- The ways a command can stand after its start: a plain one, or the push of TEARDOWN. -/
theorem beginInstr_cases (i : Instr) (s : State) (hb : s.busy = false) :
    PlainStart s (beginInstr i s) ∨
    (s.life = .ready ∧ i = .teardown ∧
      beginInstr i s = startPush .teardown { s with busy := true, pix := s.pix.update .all Pixel.turnOff }) := by
  by_cases hl : s.life = .ready
  · cases i with
    | turnOn t => exact .inl (plainStart_withTarget t _ s hb hl (.inr (.inr ⟨hl, _, rfl⟩)))
    | turnOff t => exact .inl (plainStart_withTarget t _ s hb hl (.inr (.inr ⟨hl, _, rfl⟩)))
    | setBrightness t v push =>
      exact .inl (plainStart_withTarget t _ s hb hl (plainStart_setField _ t push s hb hl (brightnessWriter_cases v)))
    | setRed t v push =>
      exact .inl (plainStart_withTarget t _ s hb hl (plainStart_setField _ t push s hb hl (redWriter_cases v)))
    | setGreen t v push =>
      exact .inl (plainStart_withTarget t _ s hb hl (plainStart_setField _ t push s hb hl (greenWriter_cases v)))
    | setBlue t v push =>
      exact .inl (plainStart_withTarget t _ s hb hl (plainStart_setField _ t push s hb hl (blueWriter_cases v)))
    | updateAll => exact .inl (.inr (.inr ⟨hl, s.pix, accept_of_ready _ s hl⟩))
    | teardown =>
      exact .inr ⟨hl, rfl, accept_of_ready (fun s => startPush .teardown (updatePixels .all Pixel.turnOff s)) s hl⟩
    | reserved0 => exact .inl (plainStart_illegal s hb hl)
    | reserved8 => exact .inl (plainStart_illegal s hb hl)
    | reserved9 => exact .inl (plainStart_illegal s hb hl)
    | reservedA => exact .inl (plainStart_illegal s hb hl)
    | reservedB => exact .inl (plainStart_illegal s hb hl)
    | reservedC => exact .inl (plainStart_illegal s hb hl)
    | reservedD => exact .inl (plainStart_illegal s hb hl)
    | reservedE => exact .inl (plainStart_illegal s hb hl)
  · refine .inl (.inl ⟨Status.notReady, by simp [commandErrors], ?_⟩)
    cases i <;> first | exact accept_of_not_ready _ s hb hl | (unfold beginInstr beginTeardown; exact accept_of_not_ready _ s hb hl)

/-- Before the push of a command is run, the sequencer stands in the start row. -/
theorem complete_started (job : Job) (s : State) (h : s.busy = true) :
    complete (startPush job s) = finish (runPush (startPush job s)) := by
  simp [complete, h]

end Sys2Proof.Laws
end

