-- ==== Sys2Proof/Laws/Encoder.lean ====
section
/-! SUPPORT. The bytes of a frame and their bits by position. -/

namespace Sys2Proof.Laws

open Sys2Proof.Machine

/-- Byte `j` of a frame is byte `j mod 4` of pixel `j div 4` (20_memory.md R52, R53). -/
theorem frameBytes_getElem (pix : PixelFile) (j : Nat) (h : j < 32) :
    (frameBytes pix)[j] = (encPixel (pix[j / 4]'(by show _ < 8; omega)))[j % 4]'(by omega) := by
  simp only [frameBytes]
  rw [Vector.getElem_flatten]
  simp

@[simp] theorem byteBits_length (x : Byte) : (byteBits x).length = 8 := rfl

/-- The bits of a list of bytes in wire order, by position (20_memory.md R54). -/
theorem flatMap_byteBits_getElem? (l : List Byte) (k : Nat) :
    (l.flatMap byteBits)[k]? = l[k / 8]?.map fun x => x.getLsbD (7 - k % 8) := by
  induction l generalizing k with
  | nil => simp
  | cons b l ih =>
    rw [List.flatMap_cons]
    by_cases h : k < 8
    · rw [List.getElem?_append_left (by simpa using h), Nat.div_eq_of_lt h, Nat.mod_eq_of_lt h]
      interval_cases k <;> rfl
    · have e2 : k / 8 = (k - 8) / 8 + 1 := by omega
      have e3 : (k - 8) % 8 = k % 8 := by omega
      rw [List.getElem?_append_right (by simpa using h), byteBits_length, ih, e2, e3]
      rfl

end Sys2Proof.Laws
end

