-- ==== Sys2Proof/Laws/PerInstr.lean ====
section
/-! SUPPORT. Per command: its word carries its opcode, and the reserved bits are 0 (30_encoding.md R76, R77). -/

namespace Sys2Proof.Laws

theorem opcField_packWord (opc : BitVec 4) (push all : Bool) (idx : BitVec 8) (value : BitVec 16) :
    opcField (packWord opc push all idx value) = opc := by
  unfold opcField packWord
  ext i hi
  simp
  interval_cases i <;> simp

theorem rsv_packWord (opc : BitVec 4) (push all : Bool) (idx : BitVec 8) (value : BitVec 16) :
    (packWord opc push all idx value).extractLsb' 24 2 = 0#2 := by
  unfold packWord
  ext i hi
  simp
  interval_cases i <;> simp

/-- The word of a command has the command's opcode in bits 31:28 and 0 in the reserved bits 25:24. -/
def Opcode.Statement (i : Instr) : Prop :=
  opcField (encode i) = i.opcode ∧ (encode i).extractLsb' 24 2 = 0#2

theorem Opcode.turnOn (t : Target) : Opcode.Statement (.turnOn t) :=
  ⟨opcField_packWord _ _ _ _ _, rsv_packWord _ _ _ _ _⟩

theorem Opcode.turnOff (t : Target) : Opcode.Statement (.turnOff t) :=
  ⟨opcField_packWord _ _ _ _ _, rsv_packWord _ _ _ _ _⟩

theorem Opcode.setBrightness (t : Target) (v : Int) (push : Bool) : Opcode.Statement (.setBrightness t v push) :=
  ⟨opcField_packWord _ _ _ _ _, rsv_packWord _ _ _ _ _⟩

theorem Opcode.setRed (t : Target) (v : Int) (push : Bool) : Opcode.Statement (.setRed t v push) :=
  ⟨opcField_packWord _ _ _ _ _, rsv_packWord _ _ _ _ _⟩

theorem Opcode.setGreen (t : Target) (v : Int) (push : Bool) : Opcode.Statement (.setGreen t v push) :=
  ⟨opcField_packWord _ _ _ _ _, rsv_packWord _ _ _ _ _⟩

theorem Opcode.setBlue (t : Target) (v : Int) (push : Bool) : Opcode.Statement (.setBlue t v push) :=
  ⟨opcField_packWord _ _ _ _ _, rsv_packWord _ _ _ _ _⟩

theorem Opcode.updateAll : Opcode.Statement (.updateAll) :=
  ⟨opcField_packWord _ _ _ _ _, rsv_packWord _ _ _ _ _⟩

theorem Opcode.teardown : Opcode.Statement (.teardown) :=
  ⟨opcField_packWord _ _ _ _ _, rsv_packWord _ _ _ _ _⟩

theorem Opcode.reserved0 : Opcode.Statement (.reserved0) :=
  ⟨opcField_packWord _ _ _ _ _, rsv_packWord _ _ _ _ _⟩

theorem Opcode.reserved8 : Opcode.Statement (.reserved8) :=
  ⟨opcField_packWord _ _ _ _ _, rsv_packWord _ _ _ _ _⟩

theorem Opcode.reserved9 : Opcode.Statement (.reserved9) :=
  ⟨opcField_packWord _ _ _ _ _, rsv_packWord _ _ _ _ _⟩

theorem Opcode.reservedA : Opcode.Statement (.reservedA) :=
  ⟨opcField_packWord _ _ _ _ _, rsv_packWord _ _ _ _ _⟩

theorem Opcode.reservedB : Opcode.Statement (.reservedB) :=
  ⟨opcField_packWord _ _ _ _ _, rsv_packWord _ _ _ _ _⟩

theorem Opcode.reservedC : Opcode.Statement (.reservedC) :=
  ⟨opcField_packWord _ _ _ _ _, rsv_packWord _ _ _ _ _⟩

theorem Opcode.reservedD : Opcode.Statement (.reservedD) :=
  ⟨opcField_packWord _ _ _ _ _, rsv_packWord _ _ _ _ _⟩

theorem Opcode.reservedE : Opcode.Statement (.reservedE) :=
  ⟨opcField_packWord _ _ _ _ _, rsv_packWord _ _ _ _ _⟩

end Sys2Proof.Laws
end

