-- ==== Sys2Proof/Laws/Sequencer.lean ====
section
/-! SUPPORT. One row of the micro-step machine, said once: it makes the first of the writes still to come and leaves the
machine in a row of its table (43_sequencer.md R177). -/

namespace Sys2Proof.Laws

open Sys2Proof.Machine Sys2Proof.Safety

/-- What a micro-step leaves unchanged. -/
structure SequencerFrame (s t : State) : Prop where
  pix : t.pix = s.pix
  life : t.life = s.life
  status : t.status = s.status
  busy : t.busy = s.busy
  snap : t.snap = s.snap
  ownDat : t.ownDat = s.ownDat
  ownClk : t.ownClk = s.ownClk
  job : t.job = s.job
  sinkCalls : t.sinkCalls = s.sinkCalls
  callers : t.callers = s.callers
  turns : t.turns = s.turns
  grain : t.grain = s.grain

/-- What a micro-step from `s` to `t` does: it makes the write `e`, the first of those to come. -/
structure MicroStep (s t : State) (e : LineEvent) : Prop where
  frame : SequencerFrame s t
  trace : t.trace = s.trace ++ [e]
  dat : t.dat = if e.line = .dat then e.level else s.dat
  clk : t.clk = if e.line = .clk then e.level else s.clk
  pending : pendingWrites s = e :: pendingWrites t
  inRow : SequencerInRow t
  idleIff : t.phase = .idle ↔ pendingWrites t = []
  atEnd : t.phase = .idle →
    t.clk = false ∧ t.cnt = 0 ∧ t.pixi = 7 ∧ t.byti = 3 ∧ t.biti = 0 ∧ t.shr = 0#8 ∧ t.sub = .clkl
  cntBound : t.cnt ≤ s.cnt ∨ t.cnt = unlockPulses

theorem frame_refl (s : State) : SequencerFrame s s := by constructor <;> rfl

theorem pulses_ne_nil {n : Nat} (h : 0 < n) : pulses n ≠ [] := by
  cases n with
  | zero => omega
  | succ n => simp [pulses, pulseEvents]

theorem pulses_of_pos {n : Nat} (h : 0 < n) : pulses n = ⟨.clk, true⟩ :: ⟨.clk, false⟩ :: pulses (n - 1) := by
  cases n with
  | zero => omega
  | succ n => rfl

theorem shiftOut_zero (x : Byte) : shiftOut 0 x = [] := rfl

theorem shiftOut_of_pos {n : Nat} (h : 0 < n) (x : Byte) :
    shiftOut n x = ⟨.dat, x.getLsbD 7⟩ :: ⟨.clk, true⟩ :: ⟨.clk, false⟩ :: shiftOut (n - 1) (x <<< 1) := by
  cases n with
  | zero => omega
  | succ n => rfl

/-- The bytes from `j` on begin with byte `j`. -/
theorem serialize_drop (snap : Vector Byte 32) (j : Nat) (h : j < 32) :
    serializeBytes (snap.toList.drop j) = shiftOut 8 snap[j] ++ serializeBytes (snap.toList.drop (j + 1)) := by
  rw [List.drop_eq_getElem_cons (by simpa using h), serializeBytes_cons]
  simp [bitsPerByte]

theorem seqStep_of_inRow (s : State) (hp : s.phase ≠ .idle) (hr : SequencerInRow s) :
    ∃ t e, seqStep s = some t ∧ MicroStep s t e := by
  rcases hph : s.phase with _ | _ | _ | _
  · exact absurd hph hp
  · simp only [SequencerInRow, hph] at hr
    obtain ⟨h0, h1, h2⟩ := hr
    rcases hs : s.sub with _ | _ | _
    · refine ⟨_, ⟨.dat, false⟩, by simp only [seqStep, hph, hs]; rfl, ?_⟩
      constructor <;> simp_all [pendingWrites, SequencerInRow]
      · constructor <;> simp
      · exact fun h => absurd h (pulses_ne_nil (by simp [lockPulses]))
    · refine ⟨_, ⟨.clk, true⟩, by simp only [seqStep, hph, hs]; rfl, ?_⟩
      constructor <;> simp_all [pendingWrites, SequencerInRow]
      · constructor <;> simp
      · simp [pulses_of_pos h0]
    · by_cases hc : s.cnt = 1
      · refine ⟨_, ⟨.clk, false⟩, by simp only [seqStep, hph, hs]; rfl, ?_⟩
        unfold lockPulseEnd
        simp only [hc]
        constructor
        · constructor <;> simp
        · simp
        · simp
        · simp
        · simp [pendingWrites, hph, hs, hc, pulses, laterBits, byteIndex]
          have h := serialize_drop s.snap 0 (by omega)
          simp only [List.drop_zero] at h
          rw [h]; simp
        · simp [SequencerInRow, ShiftRegisterHolds, byteIndex]
        · simp [pendingWrites, laterBits, shiftOut_of_pos]
        · simp
        · simp
      · refine ⟨_, ⟨.clk, false⟩, by simp only [seqStep, hph, hs]; rfl, ?_⟩
        unfold lockPulseEnd
        have hc' : ¬ s.cnt - 1 = 0 := by omega
        simp only [hc', if_false]
        constructor
        · constructor <;> simp
        · simp
        · simp
        · simp
        · simp [pendingWrites, hph, hs]
        · simp [SequencerInRow, hph]; omega
        · simp [pendingWrites, hph]
          exact fun h => absurd h (pulses_ne_nil (by omega))
        · simp [hph]
        · simp
  · simp only [SequencerInRow, hph] at hr
    obtain ⟨x, hx, hshr⟩ := hr
    have hbi := s.biti.isLt
    have hpx := s.pixi.isLt
    have hby := s.byti.isLt
    rcases hs : s.sub with _ | _ | _
    · refine ⟨_, ⟨.dat, s.shr.getLsbD 7⟩, by simp only [seqStep, hph, hs]; rfl, ?_⟩
      constructor
      · constructor <;> simp
      · simp
      · simp
      · simp
      · have e0 : 8 - s.biti.val - 1 = 7 - s.biti.val := by omega
        simp [pendingWrites, hph, hs, laterBits, byteIndex, shiftOut_of_pos (n := 8 - s.biti.val) (by omega), e0]
      · simp [SequencerInRow, hph, ShiftRegisterHolds]; exact ⟨x, hx, by simpa [hs] using hshr⟩
      · simp [pendingWrites, hph]
      · simp [hph]
      · simp
    · refine ⟨_, ⟨.clk, true⟩, by simp only [seqStep, hph, hs]; rfl, ?_⟩
      constructor
      · constructor <;> simp
      · simp
      · simp
      · simp
      · simp [pendingWrites, hph, hs, laterBits, byteIndex]
      · simp [SequencerInRow, hph, ShiftRegisterHolds]
        refine ⟨x, hx, ?_⟩
        rw [hshr]; simp [hs, BitVec.shiftLeft_add]
      · simp [pendingWrites, hph]
      · simp [hph]
      · simp
    · by_cases hb : s.biti.val + 1 < 8
      · refine ⟨_, ⟨.clk, false⟩, by simp only [seqStep, hph, hs]; rfl, ?_⟩
        unfold bitGroupEnd
        simp only [hb, dif_pos]
        constructor
        · constructor <;> simp
        · simp
        · simp
        · simp
        · simp [pendingWrites, hph, hs, laterBits, byteIndex]
        · simp [SequencerInRow, hph, ShiftRegisterHolds]; exact ⟨x, hx, by simpa [hs] using hshr⟩
        · simp [pendingWrites, hph, laterBits]
          intro h
          rw [shiftOut_of_pos (by omega)] at h; cases h
        · simp [hph]
        · simp
      · have hb7 : s.biti.val = 7 := by omega
        by_cases hj : 4 * s.pixi.val + s.byti.val + 1 < 32
        · refine ⟨_, ⟨.clk, false⟩, by simp only [seqStep, hph, hs]; rfl, ?_⟩
          unfold bitGroupEnd
          simp only [hb, hj, dif_pos, dif_neg, not_false_eq_true]
          have e1 : 4 * ((4 * s.pixi.val + s.byti.val + 1) / 4) + (4 * s.pixi.val + s.byti.val + 1) % 4 =
            4 * s.pixi.val + s.byti.val + 1 := by omega
          constructor
          · constructor <;> simp
          · simp
          · simp
          · simp
          · simp [pendingWrites, hph, hs, laterBits, byteIndex, hb7, e1]
            rw [serialize_drop s.snap _ hj]; simp [shiftOut_zero]
          · simp [SequencerInRow, ShiftRegisterHolds, byteIndex, e1]
          · simp [pendingWrites, laterBits, shiftOut_of_pos]
          · simp
          · simp
        · refine ⟨_, ⟨.clk, false⟩, by simp only [seqStep, hph, hs]; rfl, ?_⟩
          unfold bitGroupEnd
          simp only [hb, hj, dif_neg, not_false_eq_true]
          have e2 : 4 * s.pixi.val + s.byti.val + 1 = 32 := by omega
          constructor
          · constructor <;> simp
          · simp
          · simp
          · simp
          · simp [pendingWrites, hph, hs, laterBits, byteIndex, hb7, shiftOut_zero, e2]
            rw [List.drop_eq_nil_of_le (by simp)]; rfl
          · have ep : s.pixi = 7 := by apply Fin.ext; show s.pixi.val = 7; omega
            have eb : s.byti = 3 := by apply Fin.ext; show s.byti.val = 3; omega
            have es : s.shr = 0#8 := by rw [hshr, hs, hb7]; simp
            simp [SequencerInRow, unlockPulses, ep, eb, es]
          · simp [pendingWrites]; exact pulses_ne_nil (by simp [unlockPulses])
          · simp
          · simp
  · simp only [SequencerInRow, hph] at hr
    obtain ⟨h0, h1, h2, h3, h4, h5, h6⟩ := hr
    rcases hs : s.sub with _ | _ | _
    · exact absurd hs h2
    · refine ⟨_, ⟨.clk, true⟩, by simp only [seqStep, hph, hs]; rfl, ?_⟩
      constructor
      · constructor <;> simp
      · simp
      · simp
      · simp
      · simp [pendingWrites, hph, hs, pulses_of_pos h0]
      · simp [SequencerInRow, hph, h0, h1, h3, h4, h5, h6]
      · simp [pendingWrites, hph]
      · simp [hph]
      · simp
    · refine ⟨_, ⟨.clk, false⟩, by simp only [seqStep, hph, hs]; rfl, ?_⟩
      unfold unlockPulseEnd
      by_cases hc : s.cnt = 1
      · simp only [hc]
        constructor
        · constructor <;> simp
        · simp
        · simp
        · simp
        · simp [pendingWrites, hph, hs, hc, pulses]
        · simp [SequencerInRow]
        · simp [pendingWrites]
        · simp [h3, h4, h5, h6, hs]
        · simp
      · have hc' : ¬ s.cnt - 1 = 0 := by omega
        simp only [hc', if_false]
        constructor
        · constructor <;> simp
        · simp
        · simp
        · simp
        · simp [pendingWrites, hph, hs]
        · simp [SequencerInRow, hph, h3, h4, h5, h6]; omega
        · simp [pendingWrites, hph]; exact pulses_ne_nil (by omega)
        · simp [hph]
        · simp

end Sys2Proof.Laws
end

