-- ==== Sys2Proof/Laws/Step.lean ====
section
/-! SUPPORT. What one step of the machine can do, said once: the cases of a step that answers a next state. -/

namespace Sys2Proof.Laws

open Sys2Proof.Machine Sys2Proof.Safety

/-- The state in which caller `k`'s word is accepted: its turn and its word are gone. -/
def afterWord (k : Nat) (ws : List Word) (rest : List Turn) (s : State) : State :=
  { s with turns := rest, callers := s.callers.set k ws }

/-- A step from `s` to `t`, by its cause. -/
inductive StepCause (s t : State) : Prop where
  /-- The running push advances by one line write. -/
  | push (busy : s.busy = true) (polite : waitsPolitely s.turns = true) (adv : advancePush s = .next t)
  /-- Nothing of the block changes: no turn is left, or the turn passes. -/
  | pass (idle : s.busy = false) (ts : List Turn) (eq : t = { s with turns := ts })
  /-- A caller's word is run as one step. -/
  | command (idle : s.busy = false) (k : Nat) (w : Word) (ws : List Word) (rest : List Turn)
      (turns : s.turns = .caller k :: rest) (word : s.callers[k]? = some (w :: ws))
      (run : exec (decode w) (afterWord k ws rest s) = .next t)
  /-- A caller's word is accepted, up to the start of its push. -/
  | start (idle : s.busy = false) (k : Nat) (w : Word) (ws : List Word) (rest : List Turn)
      (turns : s.turns = .caller k :: rest) (word : s.callers[k]? = some (w :: ws))
      (eq : t = beginInstr (decode w) (afterWord k ws rest s))
  /-- Construction, as one step or up to the start of its push. -/
  | construct (idle : s.busy = false) (life : s.life ≠ .ready) (p : Platform) (rest : List Turn)
      (turns : s.turns = .construct p :: rest)
      (eq : t = runConstruct p { s with turns := rest } ∨ t = beginConstruct p { s with turns := rest })

theorem step_of_busy (s : State) (hb : s.busy = true) (hw : waitsPolitely s.turns = true) :
    step s = advancePush s := by
  unfold step busyStep
  simp only [hb, if_true]
  rcases hts : s.turns with _ | ⟨t, ts⟩
  · rfl
  · cases t <;> simp_all [waitsPolitely]

theorem polite_of_busy_next (s t : State) (hb : s.busy = true) (h : step s = .next t) :
    waitsPolitely s.turns = true := by
  rcases hts : s.turns with _ | ⟨x, ts⟩
  · rfl
  · cases x <;> first | rfl | simp [step, busyStep, hb, hts] at h

theorem takeWord_of_some (k : Nat) (s : State) (w : Word) (ws : List Word) (h : s.callers[k]? = some (w :: ws)) :
    takeWord k s = some (w, { s with callers := s.callers.set k ws }) := by
  simp [takeWord, h]

/-- A run of `n + 1` steps is one step and then `n`. -/
theorem run_succ_of_next (n : Nat) (s t : State) (h : step s = .next t) : core.run (n + 1) s = core.run n t := by
  have h' : core.step s = .next t := h
  simp only [Host.Core.run, h']

/-- A caller's turn in an idle block accepts its next word. -/
theorem step_of_caller (s : State) (k : Nat) (w : Word) (ws : List Word) (rest : List Turn) (hb : s.busy = false)
    (ht : s.turns = .caller k :: rest) (hc : s.callers[k]? = some (w :: ws)) :
    step s = acceptWord w (afterWord k ws rest s) := by
  have hw := takeWord_of_some k { s with turns := rest } w ws hc
  simp only [step, hb, Bool.false_eq_true, if_false, takeTurn, ht, takeCaller]
  simp only [hb] at hw
  simp only [hw, afterWord, hb]

theorem takeCaller_cases (k : Nat) (s t : State) (h : takeCaller k s = .next t) :
    t = s ∨ ∃ w ws, s.callers[k]? = some (w :: ws) ∧ acceptWord w { s with callers := s.callers.set k ws } = .next t := by
  unfold takeCaller takeWord at h
  rcases hq : s.callers[k]? with _ | q
  · simp only [hq] at h
    cases h
    exact .inl rfl
  · cases q with
    | nil =>
      simp only [hq] at h
      cases h
      exact .inl rfl
    | cons w ws =>
      simp only [hq] at h
      exact .inr ⟨w, ws, rfl, h⟩

theorem takeConstruct_cases (p : Platform) (s t : State) (h : takeConstruct p s = .next t) :
    s.life ≠ .ready ∧ (t = runConstruct p s ∨ t = beginConstruct p s) := by
  unfold takeConstruct at h
  rcases hl : s.life with _ | _ | _ | _ <;> rcases hg : s.grain with _ | _ <;> simp only [hl, hg] at h <;> cases h <;>
    simp

/-- Every step that answers a next state has one of the causes. -/
theorem step_cases (s t : State) (h : step s = .next t) : StepCause s t := by
  cases hb : s.busy with
  | true =>
    have hw := polite_of_busy_next s t hb h
    exact .push hb hw (by rw [← step_of_busy s hb hw]; exact h)
  | false =>
    simp only [step, hb, Bool.false_eq_true, if_false] at h
    rcases hts : s.turns with _ | ⟨x, rest⟩
    · simp only [takeTurn, hts] at h
      cases h
      exact .pass hb s.turns rfl
    · cases x with
      | caller k =>
        simp only [takeTurn, hts] at h
        rcases takeCaller_cases k _ t h with h | ⟨w, ws, hq, h⟩
        · exact .pass hb rest h
        · unfold acceptWord at h
          simp only at h
          split at h
          · exact .command hb k w ws rest hts hq h
          · cases h
            exact .start hb k w ws rest hts hq rfl
      | awaitIdle =>
        simp only [takeTurn, hts] at h
        cases h
        exact .pass hb rest rfl
      | construct p =>
        simp only [takeTurn, hts] at h
        obtain ⟨hl, ht⟩ := takeConstruct_cases p _ t h
        exact .construct hb hl p rest hts ht
      | foreignWrite l v =>
        simp only [takeTurn, hts, takeForeignWrite] at h
        split at h <;> split at h <;> cases h <;> exact .pass hb rest rfl

end Sys2Proof.Laws
end

