-- ==== Sys2Proof/Tests/Slice0.lean ====
section
/-! SUPPORT. Tests: well-formedness smoke tests, decoding of words written out from the spec, vectors of
95_test_vectors.md, and for every statement with hypotheses a named state that meets them. Expected values come from the spec. -/

namespace Sys2Proof.Tests

open Sys2Proof.Machine Sys2Proof.Safety Sys2Proof.Claims

/-! ## Well-formedness: one ill-formed term for each check (30_encoding.md R74, R75) -/

theorem test_wf_refuses_index_above : (Instr.turnOn (.one 128)).wf = false := by decide
theorem test_wf_refuses_index_below : (Instr.turnOff (.one (-129))).wf = false := by decide
theorem test_wf_refuses_brightness_index : (Instr.setBrightness (.one 128) 0 false).wf = false := by decide
theorem test_wf_refuses_brightness_value : (Instr.setBrightness .all 32768 false).wf = false := by decide
theorem test_wf_refuses_red_index : (Instr.setRed (.one (-129)) 0 true).wf = false := by decide
theorem test_wf_refuses_red_value : (Instr.setRed .all (-32769) true).wf = false := by decide
theorem test_wf_refuses_green_index : (Instr.setGreen (.one 128) 0 false).wf = false := by decide
theorem test_wf_refuses_green_value : (Instr.setGreen (.one 3) 32768 false).wf = false := by decide
theorem test_wf_refuses_blue_index : (Instr.setBlue (.one 128) 0 false).wf = false := by decide
theorem test_wf_refuses_blue_value : (Instr.setBlue (.one 3) (-32769) false).wf = false := by decide

/-! ## Decoding: words written out from 30_encoding.md R80 and 95_test_vectors.md 2.3, bit fields of R70 -/

theorem test_decode_turn_on : decode 0b0001_0_0_00_00000011_0000000000000000#32 = .turnOn (.one 3) := by decide
theorem test_decode_turn_on_all_wins : decode 0x1C030000#32 = .turnOn .all := by decide
theorem test_decode_turn_off : decode 0b0010_0_1_00_00000000_0000000000000000#32 = .turnOff .all := by decide
theorem test_decode_brightness :
    decode 0b0011_1_0_00_00000111_0000000001100100#32 = .setBrightness (.one 7) 100 true := by decide
theorem test_decode_brightness_negative : decode 0x3000FFFF#32 = .setBrightness (.one 0) (-1) false := by decide
theorem test_decode_red : decode 0b0100_1_0_00_00000011_0000000011001000#32 = .setRed (.one 3) 200 true := by decide
theorem test_decode_red_index_negative : decode 0x40FF0005#32 = .setRed (.one (-1)) 5 false := by decide
theorem test_decode_red_rsv_ignored : decode 0x4B0300C8#32 = .setRed (.one 3) 200 true := by decide
theorem test_decode_green : decode 0b0101_0_1_00_00000000_0000000010000000#32 = .setGreen .all 128 false := by decide
theorem test_decode_blue : decode 0b0110_1_0_00_00000000_0000000100000000#32 = .setBlue (.one 0) 256 true := by decide
theorem test_decode_update_all : decode 0x7FFFFFFF#32 = .updateAll := by decide
theorem test_decode_teardown : decode 0b1111_0_0_00_00000000_0000000000000000#32 = .teardown := by decide
theorem test_decode_reserved :
    [0x00000000#32, 0x80000000#32, 0x90000000#32, 0xA0000000#32, 0xB0000000#32, 0xC0000000#32, 0xD0000000#32,
      0xE4000000#32].map decode =
    [.reserved0, .reserved8, .reserved9, .reservedA, .reservedB, .reservedC, .reservedD, .reservedE] := by decide
theorem test_encode_examples :
    [.setRed (.one 3) 200 true, .setBrightness .all 50 false, .turnOn (.one 3), .turnOn .all, .updateAll, .teardown].map
      encode =
    [0x480300C8#32, 0x34000032#32, 0x10030000#32, 0x14000000#32, 0x70000000#32, 0xF0000000#32] := by decide
theorem test_decode_table_word : decodeTableWord 32 0x480300C8 = some (.setRed (.one 3) 200 true) := by decide
theorem test_asm_set_red : asmText (.setRed (.one 3) 200 true) = some "SET_RED 3, 200, push" := by decide

/-! ## Pixel operations (95_test_vectors.md 2.1) and the encoder (2.2) -/

/-- The start pixel of 95_test_vectors.md 2.1. -/
def start : Pixel := ⟨1 / 2, 10#8, 20#8, 30#8⟩

theorem test_v2_v3_set_brightness :
    start.setBrightness 1 = .ok ⟨1, 10#8, 20#8, 30#8⟩ ∧ start.setBrightness (101 / 100) = .error .range := by decide +kernel
theorem test_v6_v7_set_red :
    start.setRed 255 = .ok ⟨1 / 2, 255#8, 20#8, 30#8⟩ ∧ start.setRed 256 = .error .range := by decide +kernel
theorem test_v8_set_green :
    start.setGreen 0 = .ok ⟨1 / 2, 10#8, 0#8, 30#8⟩ ∧ start.setGreen 256 = .error .range := by decide +kernel
theorem test_v9_set_blue :
    start.setBlue 255 = .ok ⟨1 / 2, 10#8, 20#8, 255#8⟩ ∧ start.setBlue (-1) = .error .range := by decide +kernel
theorem test_v10_v11_set_rgb :
    start.setRgb 1 2 3 1 = .ok ⟨1, 1#8, 2#8, 3#8⟩ ∧ start.setRgb 1 2 300 1 = .error .range := by decide +kernel
theorem test_v14_v15_set_from_hex :
    start.setFromHex ['0', 'x', 'A', 'b', 'C', 'd', 'E', 'f'] 1 = .ok ⟨1, 0xAB#8, 0xCD#8, 0xEF#8⟩ ∧
    start.setFromHex ['0', 'X', '0', '0', '0', '0', '0', '0'] 0 = .ok ⟨0, 0#8, 0#8, 0#8⟩ := by decide +kernel
theorem test_v17_to_v24_set_from_hex_rejects :
    [start.setFromHex ['1', '2', '3', '4', '5'] 2, start.setFromHex ['#', '1', '1', '2', '2', '3', '3', '4'] 1,
      start.setFromHex ['#', '0', 'x', '1', '1', '2', '2'] 1, start.setFromHex ['#', '1', '2', '3', '4', '5', 'G'] 1,
      start.setFromHex [' ', '1', '1', '2', '2', '3', '3'] 1, start.setFromHex ['#'] 1,
      start.setFromHex ['#', '1', '1', '2', '2', '3', '3'] 2] =
    [.error .format, .error .format, .error .format, .error .format, .error .format, .error .format, .error .range] := by
  decide +kernel
theorem test_brightness_codes :
    ([0, 1, 3, 4, 33, 50, 64, 65, 96, 97, 99, 100].map fun p => (briCode (percentToBrightness p)).toNat) =
    [0, 0, 0, 1, 10, 15, 19, 20, 29, 30, 30, 31] := by decide +kernel
theorem test_v33_v36_encode_pixel :
    encPixel ⟨1 / 2, 200#8, 100#8, 50#8⟩ = #v[0xEF#8, 0x32#8, 0x64#8, 0xC8#8] ∧
    encPixel ⟨30 / 31, 0#8, 0#8, 0#8⟩ = #v[0xFE#8, 0#8, 0#8, 0#8] := by decide +kernel
theorem test_v38_byte_bits : byteBits 0xC8#8 = [true, true, false, false, true, false, false, false] := by decide

/-! ## One command, one step (95_test_vectors.md 2.3): STATUS, the number of events, and what changed -/

/-- READY, all pixels off, the trace emptied so that a test counts a command's own events. -/
def ready : State := { State.reset with trace := [] }

/-- The next state of an outcome. -/
def nextOf : Result → Option State
  | .next t => some t
  | .fault _ => none
  | .refused _ => none

/-- STATUS, events and one pixel after the step that runs the word `w` from `ready`. -/
def shown (w : Nat) (j : Fin 8) : Option (BitVec 3 × Nat × Pixel) :=
  (nextOf (step (ready.withFetchWord 32 w))).map fun t => (t.status, t.trace.length, t.pix[j.val])

theorem test_v50_turn_on : shown 0x10030000 3 = some (0#3, 905, ⟨1, 255#8, 255#8, 255#8⟩) := by decide +kernel
theorem test_v50_turn_on_only_the_target : shown 0x10030000 2 = some (0#3, 905, ⟨0, 0#8, 0#8, 0#8⟩) := by decide +kernel
theorem test_v55_turn_off : shown 0x24000000 7 = some (0#3, 905, ⟨0, 0#8, 0#8, 0#8⟩) := by decide +kernel
theorem test_v56_set_brightness : shown 0x34000032 5 = some (0#3, 0, ⟨1 / 2, 0#8, 0#8, 0#8⟩) := by decide +kernel
theorem test_v60_set_brightness_rejects : shown 0x38000065 0 = some (1#3, 0, ⟨0, 0#8, 0#8, 0#8⟩) := by decide +kernel
theorem test_v61_set_red : shown 0x480300C8 3 = some (0#3, 905, ⟨0, 200#8, 0#8, 0#8⟩) := by decide +kernel
theorem test_v69_set_red_index_first : shown 0x400FFFFF 0 = some (3#3, 0, ⟨0, 0#8, 0#8, 0#8⟩) := by decide +kernel
theorem test_v70_set_green : shown 0x54000080 6 = some (0#3, 0, ⟨0, 0#8, 128#8, 0#8⟩) := by decide +kernel
theorem test_v72_set_blue : shown 0x680000FF 0 = some (0#3, 905, ⟨0, 0#8, 0#8, 255#8⟩) := by decide +kernel
theorem test_v71_set_blue_rejects : shown 0x68000100 0 = some (1#3, 0, ⟨0, 0#8, 0#8, 0#8⟩) := by decide +kernel
theorem test_v75_update_all : shown 0x7FFFFFFF 0 = some (0#3, 905, ⟨0, 0#8, 0#8, 0#8⟩) := by decide +kernel
theorem test_v79_teardown :
    (nextOf (step (ready.withFetchWord 32 0xF0000000))).map (fun t => (t.status, t.life, t.ownDat, t.ownClk)) =
      some (0#3, .released, false, false) := by decide +kernel
theorem test_v76_v78_reserved :
    ([0x00000000, 0x80000000, 0x90000000, 0xA0000000, 0xB0000000, 0xC0000000, 0xD0000000, 0xE4000000].map
      fun w => (shown w 0).map fun x => (x.1, x.2.1)) = List.replicate 8 (some (5#3, 0)) := by decide +kernel
theorem test_v83_second_teardown :
    (nextOf (step ({ ready with life := .released, ownDat := false, ownClk := false }.withFetchWord 32 0xF0000000))).map
      (fun t => (t.status, t.life, t.trace.length)) = some (6#3, .released, 0) := by decide +kernel

/-! ## The push (95_test_vectors.md 2.4), construction (2.5) -/

/-- The all-off strip with pixel 3 as in V97. -/
def v97 : PixelFile := PixelFile.off.set 3 ⟨1 / 2, 200#8, 100#8, 50#8⟩

theorem test_v90_v96_events :
    (pushEvents (frameBytes PixelFile.off)).length = 905 ∧
    ([0, 1, 2, 71, 72, 73, 82, 840, 841, 904].map fun e => (pushEvents (frameBytes PixelFile.off))[e]?) =
    [some ⟨.dat, false⟩, some ⟨.clk, true⟩, some ⟨.clk, false⟩, some ⟨.clk, true⟩, some ⟨.clk, false⟩, some ⟨.dat, true⟩,
      some ⟨.dat, false⟩, some ⟨.clk, false⟩, some ⟨.clk, true⟩, some ⟨.clk, false⟩] := by decide +kernel
theorem test_v97_events :
    ([361, 362, 363, 364, 365, 366].map fun e => (pushEvents (frameBytes v97))[e]?) =
    [some ⟨.dat, true⟩, some ⟨.clk, true⟩, some ⟨.clk, false⟩, some ⟨.dat, true⟩, some ⟨.clk, true⟩,
      some ⟨.clk, false⟩] := by decide +kernel
/-- After a failed construction: no line held. -/
def failed : State := { ready with life := .failed, ownDat := false, ownClk := false }

theorem test_v112_clock_refused :
    (nextOf (step { failed with turns := [.construct ⟨true, false, true, true⟩] })).map
      (fun t => (t.status, t.life, t.ownDat, t.trace.length)) =
      some (4#3, .failed, false, 0) := by decide +kernel
theorem test_v116_construct_in_ready :
    step { ready with turns := [.construct ⟨true, true, false, false⟩] } = .refused .constructWhileReady := rfl

/-! ## Witnesses: states and operands that meet the hypotheses of each statement -/

theorem exists_of_nextOf (r : Result) (p : State → Bool) (h : (nextOf r).any p = true) : ∃ t, Answers r t ∧ p t = true := by
  cases r with
  | next t => exact ⟨t, rfl, by simpa [nextOf] using h⟩
  | fault f => simp [nextOf] at h
  | refused f => simp [nextOf] at h

/-- `ready` in the middle of nothing but the start of the push of UPDATE_ALL. -/
def pushing : State := beginUpdateAll ready

/-- After TEARDOWN: no line held. -/
def released : State := { ready with life := .released, ownDat := false, ownClk := false }

theorem pixels_off_legal : PixelsLegal PixelFile.off := by
  intro j h
  have : PixelFile.off[j] = Pixel.off := by simp [PixelFile.off]
  rw [this]
  decide +kernel

theorem witness_ready : Ready ready := ⟨rfl, rfl⟩

theorem witness_inv_ready : Inv ready where
  pixelsLegal := pixels_off_legal
  cntInRange := by decide
  busyIffPushing := by decide
  busyIffJob := by decide
  jobFitsLife := by simp [ready, State.reset, State.resetFor]
  ownDatIff := by decide
  ownClkIff := by decide
  clockLowBetween := by decide
  snapshotIsFrame := fun _ => rfl
  sequencerInRow := trivial
  hostsAtLeastOne := by decide

theorem witness_inv_released : Inv released where
  pixelsLegal := pixels_off_legal
  cntInRange := by decide
  busyIffPushing := by decide
  busyIffJob := by decide
  jobFitsLife := by simp [released, ready, State.reset, State.resetFor]
  ownDatIff := by decide
  ownClkIff := by decide
  clockLowBetween := by decide
  snapshotIsFrame := fun _ => rfl
  sequencerInRow := trivial
  hostsAtLeastOne := by decide

theorem witness_inv_pushing : Inv pushing where
  pixelsLegal := pixels_off_legal
  cntInRange := by decide
  busyIffPushing := by decide
  busyIffJob := by decide
  jobFitsLife := by
    intro j h
    have e : pushing.job = some .command := rfl
    rw [e] at h
    cases h
    decide
  ownDatIff := by decide
  ownClkIff := by decide
  clockLowBetween := by decide
  snapshotIsFrame := fun _ => rfl
  sequencerInRow := ⟨by decide, by decide, fun _ => rfl⟩
  hostsAtLeastOne := by decide

theorem witness_DecodeEncodeRoundTrip :
    (Instr.setRed (.one (-128)) (-32768) true).wf = true ∧ (Instr.setBlue (.one 127) 32767 false).wf = true ∧
    (Instr.turnOn .all).wf = true ∧ Instr.reservedE.wf = true := by decide

theorem witness_IgnoredBitsDoNotMatter :
    0x7FFFFFFF#32 &&& readMask 0x7FFFFFFF#32 = 0x70000000#32 &&& readMask 0x7FFFFFFF#32 ∧
    0x1C030000#32 &&& readMask 0x1C030000#32 = 0x14000000#32 &&& readMask 0x1C030000#32 ∧
    0x4B0300C8#32 &&& readMask 0x4B0300C8#32 = 0x480300C8#32 &&& readMask 0x4B0300C8#32 ∧
    Instr.updateAll.wf = true := by decide

/-- An idle block with the last of one caller's words up, in either grain. -/
def waiting (g : Grain) : State := { ready with turns := [.caller 0], callers := [[0x70000000#32]], grain := g }

theorem witness_StepRunsTheDecodedCommand :
    (waiting .command).busy = false ∧ (waiting .command).grain = .command ∧ (waiting .command).turns = .caller 0 :: [] ∧
    (waiting .command).callers[0]? = some [0x70000000#32] := ⟨rfl, rfl, rfl, rfl⟩

theorem witness_StepRunsThePlacedWord : ready.busy = false ∧ ready.callers = [[]] := ⟨rfl, rfl⟩

theorem witness_IdleBlockHoldsItsState : ready.busy = false ∧ ready.turns = [] := ⟨rfl, rfl⟩

theorem witness_SetChannelStoresExactlyOrRejects :
    ((0 : Int) ≤ 0 ∧ (0 : Int) ≤ 255) ∧ ((0 : Int) ≤ 255 ∧ (255 : Int) ≤ 255) ∧ ¬ ((0 : Int) ≤ -1 ∧ (-1 : Int) ≤ 255) ∧
    ¬ ((0 : Int) ≤ 256 ∧ (256 : Int) ≤ 255) := by decide

theorem witness_SetBrightnessStoresExactlyOrRejects :
    ((0 : Rat) ≤ 0 ∧ (0 : Rat) ≤ 1) ∧ ((0 : Rat) ≤ 1 ∧ (1 : Rat) ≤ 1) ∧ (-1 / 100 : Rat) < 0 ∧ (1 : Rat) < 101 / 100 ∧
    ((0 : Rat) < 1 / 100 ∧ (1 / 100 : Rat) < 1 / 31) := by
  decide +kernel

theorem witness_SetRgbWritesAllOrNothing :
    ((0 : Int) ≤ 0 ∧ (0 : Int) ≤ 255) ∧ ((0 : Int) ≤ 255 ∧ (255 : Int) ≤ 255) ∧ (0 : Rat) ≤ 1 ∧
    ¬ ((0 : Int) ≤ 256 ∧ (256 : Int) ≤ 255) ∧ ¬ ((0 : Rat) ≤ 101 / 100 ∧ (101 / 100 : Rat) ≤ 1) := by decide +kernel

theorem witness_SetFromHexParsesOrRejects :
    ['0', 'X'] ∈ hexPrefixes ∧ [] ∈ hexPrefixes ∧ hexval '0' = some 0 ∧ hexval '9' = some 9 ∧ hexval 'a' = some 10 ∧
    hexval 'F' = some 15 ∧ hexval 'G' = none ∧ hexval '/' = none ∧ hexval ':' = none ∧ hexval '`' = none ∧
    ((0 : Rat) ≤ 1 ∧ (1 : Rat) ≤ 1) ∧ ¬ ((0 : Rat) ≤ 2 ∧ (2 : Rat) ≤ 1) := by decide +kernel

theorem witness_SetFromHexRejectsFormat :
    ¬ ∃ pre ∈ hexPrefixes, ∃ ds : List Char,
      ['1', '2', '3', '4', '5'] = pre ++ ds ∧ ds.length = 6 ∧ ∀ c ∈ ds, (hexval c).isSome := by
  rintro ⟨pre, -, ds, h, hl, -⟩
  have := congrArg List.length h
  simp [hl] at this

theorem witness_BrightnessCodeIsTheExactFloor :
    ((0 : Rat) ≤ 0 ∧ (0 : Rat) ≤ 1) ∧ ((1 : Rat) ≤ 1) ∧ (1 : Rat) = ((100 : Nat) : Rat) / 100 ∧ (0 : Nat) ≤ 30 ∧
    (30 / 31 : Rat) ≤ 1 ∧ (0 : Rat) = ((0 : Nat) : Rat) / 100 ∧ firstPercents[0]? = some 0 ∧ firstPercents[31]? = some 100 := by
  decide +kernel

theorem witness_DataBitsByPosition : (0 : Nat) < 256 ∧ (255 : Nat) < 256 := by decide

theorem witness_DataStableWhileClockHigh :
    (pushEvents (frameBytes PixelFile.off))[1]? = some ⟨.clk, true⟩ ∧
    (pushEvents (frameBytes PixelFile.off))[0]? = some ⟨.dat, false⟩ ∧
    (pushEvents (frameBytes PixelFile.off))[73]? = some ⟨.dat, true⟩ ∧
    (pushEvents (frameBytes PixelFile.off))[903]? = some ⟨.clk, true⟩ := by decide +kernel

theorem witness_LineLevelsAfterAPush : ready.pix = PixelFile.off := rfl

theorem witness_ShiftRegisterSendsTheByte : (0 : Nat) ≤ 7 ∧ (7 : Nat) ≤ 7 ∧ (8 : Nat) ≤ 8 := by decide

theorem witness_BusyStepMakesTheNextLineWrite :
    Inv pushing ∧ pushing.busy = true ∧ waitsPolitely pushing.turns = true := ⟨witness_inv_pushing, rfl, rfl⟩

theorem witness_LineWriteStepsEqualTheCommand :
    (waiting .lineWrite).busy = false ∧ (waiting .lineWrite).grain = .lineWrite ∧
    (waiting .lineWrite).turns = .caller 0 :: [] ∧ waitsPolitely [] = true ∧
    (waiting .lineWrite).callers[0]? = some [0x70000000#32] := ⟨rfl, rfl, rfl, rfl, rfl⟩

/-- An idle block outside READY with CONSTRUCT up. -/
def constructing (p : Platform) (g : Grain) : State := { released with turns := [.construct p], grain := g }

theorem witness_LineWriteStepsEqualConstruction (p : Platform) :
    (constructing p .lineWrite).busy = false ∧ (constructing p .lineWrite).life ≠ .ready ∧
    (constructing p .lineWrite).grain = .lineWrite ∧ (constructing p .lineWrite).turns = .construct p :: [] :=
  ⟨rfl, by simp [constructing, released], rfl, rfl⟩

theorem witness_RunningPushRunsToItsEnd :
    Inv pushing ∧ pushing.busy = true ∧ waitsPolitely pushing.turns = true := ⟨witness_inv_pushing, rfl, rfl⟩

theorem witness_targets :
    LegalTarget .all ∧ LegalTarget (.one 0) ∧ LegalTarget (.one 7) ∧ ¬ LegalTarget (.one (-1)) ∧ ¬ LegalTarget (.one 8) := by
  refine ⟨by simp [LegalTarget], ?_, ?_, fun h => absurd (h _ rfl) (by decide), fun h => absurd (h _ rfl) (by decide)⟩ <;>
    · intro i h
      cases h
      decide

theorem witness_TurnOnResult : Ready ready ∧ LegalTarget (.one 0) ∧ ¬ LegalTarget (.one 8) :=
  ⟨witness_ready, witness_targets.2.1, witness_targets.2.2.2.2⟩

theorem witness_TurnOffResult : Ready ready ∧ LegalTarget (.one 7) ∧ ¬ LegalTarget (.one (-1)) :=
  ⟨witness_ready, witness_targets.2.2.1, witness_targets.2.2.2.1⟩

theorem witness_SetBrightnessResult :
    Ready ready ∧ LegalTarget .all ∧ ¬ LegalTarget (.one 8) ∧ ((0 : Int) ≤ 0 ∧ (0 : Int) ≤ 100) ∧
    ((0 : Int) ≤ 100 ∧ (100 : Int) ≤ 100) ∧ ¬ ((0 : Int) ≤ 101 ∧ (101 : Int) ≤ 100) ∧ ¬ ((0 : Int) ≤ -1 ∧ (-1 : Int) ≤ 100) :=
  ⟨witness_ready, witness_targets.1, witness_targets.2.2.2.2, by decide⟩

/-- SET_RED, and SET_GREEN and SET_BLUE alike: their rule has the same hypotheses. -/
theorem witness_SetRedResult :
    Ready ready ∧ LegalTarget (.one 7) ∧ ¬ LegalTarget (.one (-1)) ∧ ((0 : Int) ≤ 0 ∧ (0 : Int) ≤ 255) ∧
    ((0 : Int) ≤ 255 ∧ (255 : Int) ≤ 255) ∧ ¬ ((0 : Int) ≤ 256 ∧ (256 : Int) ≤ 255) ∧ ¬ ((0 : Int) ≤ -1 ∧ (-1 : Int) ≤ 255) :=
  ⟨witness_ready, witness_targets.2.2.1, witness_targets.2.2.2.1, by decide⟩

theorem witness_SetGreenResult :
    Ready ready ∧ LegalTarget .all ∧ ¬ LegalTarget (.one 8) ∧ ((0 : Int) ≤ 255 ∧ (255 : Int) ≤ 255) ∧
    ¬ ((0 : Int) ≤ 256 ∧ (256 : Int) ≤ 255) := ⟨witness_ready, witness_targets.1, witness_targets.2.2.2.2, by decide⟩

theorem witness_SetBlueResult :
    Ready ready ∧ LegalTarget .all ∧ ¬ LegalTarget (.one 8) ∧ ((0 : Int) ≤ 0 ∧ (0 : Int) ≤ 255) ∧
    ¬ ((0 : Int) ≤ -1 ∧ (-1 : Int) ≤ 255) := ⟨witness_ready, witness_targets.1, witness_targets.2.2.2.2, by decide⟩

theorem witness_UpdateAllResult : Ready ready := witness_ready

theorem witness_TeardownResult :
    ready.busy = false ∧ ready.life = .ready ∧ released.busy = false ∧ released.life ≠ .ready :=
  ⟨rfl, rfl, rfl, by simp [released]⟩

theorem witness_ReservedOpcodesAreIllegal : Ready ready ∧ Instr.reservedE ∈ [Instr.reserved0, .reserved8, .reservedE] ∧ opcReserved 0x00000000#32 ∧ opcReserved 0xE4000000#32 :=
  ⟨witness_ready, by simp, by decide⟩

theorem witness_NotReadyRejectsEveryCommand : released.busy = false ∧ released.life ≠ .ready :=
  ⟨rfl, by simp [released]⟩

theorem witness_FirstFailingCheckWins :
    (released.life ≠ .ready ∧ ready.life = .ready) ∧
    (opcReserved 0x00000000#32 ∧ opcReserved 0x80000000#32 ∧ opcReserved 0xE4000000#32 ∧ ¬ opcReserved 0xF0000000#32 ∧
      ¬ opcReserved 0x70000000#32) ∧
    (indexBad 0x400FFFFF#32 ∧ valueBad 0x400FFFFF#32 ∧ indexBad 0x40080005#32 ∧ ¬ indexBad 0x44080005#32 ∧
      ¬ indexBad 0x40070005#32) ∧
    (valueBad 0x30000065#32 ∧ ¬ valueBad 0x30000064#32 ∧ valueBad 0x40000100#32 ∧ ¬ valueBad 0x400000FF#32) ∧
    start.setFromHex ['1', '2', '3', '4', '5'] 0 = .error .format :=
  ⟨by decide, by decide, by decide, by decide, rfl⟩

theorem witness_ErrorsChangeOnlyStatus :
    ready.busy = false ∧ ∃ u, Answers (exec .reserved8 ready) u ∧ decide (u.status ≠ Status.ok) = true :=
  ⟨rfl, exists_of_nextOf _ _ (by decide +kernel)⟩

theorem witness_EveryCommandCompletes : ready.busy = false ∧ released.busy = false := ⟨rfl, rfl⟩

/-- A push is running and a caller is waiting. -/
def pushingWithCaller : State := { pushing with turns := [.caller 0], callers := [[0x70000000#32]] }

theorem witness_BusyBlockAcceptsNoWord :
    pushingWithCaller.busy = true ∧ pushingWithCaller.turns = .caller 0 :: [] ∧
    (∃ t, Answers (step pushingWithCaller) t ∧ decide (t.busy = true) = true) ∧
    ∃ t, Answers (step { pushingWithCaller with turns := [] }) t ∧ decide (t.busy = true) = true :=
  ⟨rfl, rfl, exists_of_nextOf _ _ (by decide +kernel), exists_of_nextOf _ _ (by decide +kernel)⟩

theorem witness_inv_constructing (p : Platform) (g : Grain) : Inv (constructing p g) :=
  { witness_inv_released with }

theorem witness_ConstructResult (p : Platform) (g : Grain) :
    Inv (constructing p g) ∧ (constructing p g).busy = false ∧ (constructing p g).life ≠ .ready ∧
    (constructing p g).grain = g ∧ (constructing p g).turns = .construct p :: [] :=
  ⟨witness_inv_constructing p g, rfl, by simp [constructing, released], rfl, rfl⟩

/-- A refused and a granted construction, both from a state of the invariant. -/
theorem witness_ConstructResult_answers :
    (∃ u, Answers (step (constructing ⟨true, false, true, true⟩ .command)) u ∧ decide (u.life = .failed) = true) ∧
    ∃ u, Answers (step (constructing ⟨true, true, true, true⟩ .command)) u ∧ decide (u.life = .ready) = true :=
  ⟨exists_of_nextOf _ _ (by decide +kernel), exists_of_nextOf _ _ (by decide +kernel)⟩

theorem witness_ConstructRefusedWhileLive (p : Platform) :
    { ready with turns := [.construct p] }.busy = false ∧ { ready with turns := [.construct p] }.life = .ready ∧
    { pushing with turns := [.construct p] }.busy = true := ⟨rfl, rfl, rfl⟩

theorem witness_ForeignLineWriteRefusedInReady :
    (Inv ready ∧ ready.life = .ready) ∧ (Inv pushing ∧ pushing.life = .ready ∧ pushing.busy = true) :=
  ⟨⟨witness_inv_ready, rfl⟩, witness_inv_pushing, rfl, rfl⟩

/-- The push of construction, just started. -/
def constructPushing : State := beginConstruct ⟨true, true, false, true⟩ released

theorem witness_inv_constructPushing : Inv constructPushing where
  pixelsLegal := pixels_off_legal
  cntInRange := by decide
  busyIffPushing := by decide
  busyIffJob := by decide
  jobFitsLife := by
    intro j h
    have e : constructPushing.job = some .construct := rfl
    rw [e] at h
    cases h
    decide
  ownDatIff := by decide
  ownClkIff := by decide
  clockLowBetween := by decide
  snapshotIsFrame := fun _ => rfl
  sequencerInRow := ⟨by decide, by decide, fun _ => rfl⟩
  hostsAtLeastOne := by decide

theorem witness_ForeignLineWriteOutsideReady :
    (Inv released ∧ released.life ≠ .ready ∧ released.busy = false) ∧
    (Inv constructPushing ∧ constructPushing.life ≠ .ready ∧ constructPushing.busy = true) :=
  ⟨⟨witness_inv_released, by simp [released], rfl⟩, witness_inv_constructPushing, by decide, rfl⟩

theorem witness_InvariantHoldsAtReset : 1 ≤ (State.resetFor 1).hosts ∧ 1 ≤ (State.powerOnFor 2).hosts := by decide

theorem witness_ResetValues :
    (false && true) = false ∧ ((⟨true, false, true, true⟩ : Platform).grantDat && false) = false := by decide

theorem witness_StepKeepsTheInvariant :
    Inv pushing ∧ ∃ t, Answers (step pushing) t ∧ decide (t.trace = [⟨.dat, false⟩]) = true :=
  ⟨witness_inv_pushing, exists_of_nextOf _ _ (by decide +kernel)⟩

theorem witness_StepKeepsTheTraceGrouped :
    Inv pushing ∧ TraceGrouped pushing ∧ ∃ t, Answers (step pushing) t ∧ decide (t.trace = [⟨.dat, false⟩]) = true :=
  ⟨witness_inv_pushing, ⟨[frameBytes PixelFile.off], by simp [pushing, pendingWrites, pushEvents]; rfl⟩,
    exists_of_nextOf _ _ (by decide +kernel)⟩

theorem witness_EveryRunIsSafe : Inv pushing ∧ TraceGrouped pushing :=
  ⟨witness_StepKeepsTheTraceGrouped.1, witness_StepKeepsTheTraceGrouped.2.1⟩

theorem witness_TraceOnlyGrows : ∃ t, Answers (step (waiting .command)) t ∧ decide (t.trace.length = 905) = true :=
  exists_of_nextOf _ _ (by decide +kernel)

theorem witness_CommandsWriteOnlyOwnedLines :
    Inv ready ∧ ∃ u, Answers (exec .updateAll ready) u ∧ decide (u.trace ≠ ready.trace) = true :=
  ⟨witness_inv_ready, exists_of_nextOf _ _ (by decide +kernel)⟩

theorem witness_OnlyTeardownLeavesReady :
    (∃ u, Answers (exec .teardown ready) u ∧ decide (u.life = .released) = true) ∧
    ∃ u, Answers (exec .updateAll ready) u ∧ decide (u.life = .ready) = true :=
  ⟨exists_of_nextOf _ _ (by decide +kernel), exists_of_nextOf _ _ (by decide +kernel)⟩

theorem witness_StatusCodesAStepCanProduce :
    (∃ t, Answers (step (ready.withFetchWord 32 0x80000000)) t ∧
      decide (t.status ≠ (ready.withFetchWord 32 0x80000000).status) = true) ∧
    ∃ t, Answers (step (constructing ⟨false, true, true, true⟩ .command)) t ∧ decide (t.status = 4#3) = true :=
  ⟨exists_of_nextOf _ _ (by decide +kernel), exists_of_nextOf _ _ (by decide +kernel)⟩

theorem witness_CallersKeepTheirOrder :
    ∃ t, Answers (step (waiting .command)) t ∧ decide (t.callers = [[]]) = true :=
  exists_of_nextOf _ _ (by decide +kernel)

theorem witness_SetCommandsWriteOneFieldOnly :
    (∃ u, Answers (exec (.setBrightness .all 50 false) ready) u ∧ decide (u.status = 0#3) = true) ∧
    (∃ u, Answers (exec (.setRed (.one 0) 5 false) ready) u ∧ decide (u.status = 0#3) = true) ∧
    (∃ u, Answers (exec (.setGreen (.one 7) 5 true) ready) u ∧ decide (u.status = 0#3) = true) ∧
    ∃ u, Answers (exec (.setBlue (.one 8) 5 true) ready) u ∧ decide (u.status = 3#3) = true :=
  ⟨exists_of_nextOf _ _ (by decide +kernel), exists_of_nextOf _ _ (by decide +kernel),
    exists_of_nextOf _ _ (by decide +kernel), exists_of_nextOf _ _ (by decide +kernel)⟩

theorem witness_SetPixelSendsOneFrame :
    Ready ready ∧ LegalTarget (.one 0) ∧ LegalTarget .all ∧ ((0 : Int) ≤ 255 ∧ (255 : Int) ≤ 255) ∧ (0 : Int) ≤ 100 :=
  ⟨witness_ready, witness_targets.2.1, witness_targets.1, by decide⟩

theorem witness_StepKeepsBrightnessPercents :
    (∀ (j : Nat) (h : j < 8), ∃ p : Nat, p ≤ 100 ∧ ready.pix[j].bri = (p : Rat) / 100) ∧
    ∃ t, Answers (step (ready.withFetchWord 32 0x34000032)) t ∧ decide (t.status = 0#3) = true :=
  ⟨fun j h => ⟨0, by omega, by simp [ready, State.reset, State.resetFor, PixelFile.off, Pixel.off]⟩, exists_of_nextOf _ _ (by decide +kernel)⟩

theorem witness_QuiescentRunIsOver :
    { ready with turns := [.caller 0, .awaitIdle], callers := [[]] }.quiescent = true ∧
    waitsPolitely [.caller 0, .awaitIdle] = true := by decide

end Sys2Proof.Tests
end

section
/-! Proofs of the encoding family: the bits a command reads (30_encoding.md R70 to R76) and the reserved opcodes
(R78, 60_exceptions.md R205). The read mask is shown to be a packed word, one field at a time; both directions of R76 are
then statements about the fields. -/

namespace Sys2Proof.Proofs

open Sys2Proof.Machine Sys2Proof.Laws Sys2Proof.Claims

/-! ### The fields of a word -/

/-- Words with the same field have the same bits in it. -/
theorem getLsbD_eq_of_extractLsb'_eq {w v : Word} {start len : Nat} (i : Nat)
    (h : w.extractLsb' start len = v.extractLsb' start len) (hlo : start ≤ i) (hhi : i < start + len) :
    w.getLsbD i = v.getLsbD i := by
  have hbit := congrArg (·.getLsbD (i - start)) h
  have hlt : i - start < len := by omega
  simpa [hlt, Nat.add_sub_cancel' hlo] using hbit

/-- The fields and the reserved bits together are the whole word (30_encoding.md R70). -/
theorem word_ext {w v : Word} (hopc : opcField w = opcField v) (hpush : pushField w = pushField v)
    (hall : allField w = allField v) (hrsv : w.extractLsb' 24 2 = v.extractLsb' 24 2)
    (hidx : w.extractLsb' 16 8 = v.extractLsb' 16 8) (hvalue : w.extractLsb' 0 16 = v.extractLsb' 0 16) : w = v := by
  refine BitVec.eq_of_getLsbD_eq fun i hi => ?_
  by_cases h27 : i = 27
  · exact h27 ▸ hpush
  by_cases h26 : i = 26
  · exact h26 ▸ hall
  obtain h | ⟨hlo, hhi⟩ | ⟨hlo, hhi⟩ | h : i < 16 ∨ (16 ≤ i ∧ i < 24) ∨ (24 ≤ i ∧ i < 26) ∨ 28 ≤ i := by omega
  · exact getLsbD_eq_of_extractLsb'_eq i hvalue i.zero_le (by omega)
  · exact getLsbD_eq_of_extractLsb'_eq i hidx hlo hhi
  · exact getLsbD_eq_of_extractLsb'_eq i hrsv hlo hhi
  · exact getLsbD_eq_of_extractLsb'_eq i hopc h hi

@[simp] theorem opcField_and (w v : Word) : opcField (w &&& v) = opcField w &&& opcField v :=
  BitVec.extractLsb'_and

@[simp] theorem pushField_and (w v : Word) : pushField (w &&& v) = (pushField w && pushField v) :=
  BitVec.getLsbD_and

@[simp] theorem allField_and (w v : Word) : allField (w &&& v) = (allField w && allField v) :=
  BitVec.getLsbD_and

@[simp] theorem pushField_packWord (opc : BitVec 4) (push all : Bool) (idx : BitVec 8) (value : BitVec 16) :
    pushField (packWord opc push all idx value) = push := by
  simp [pushField, packWord]

@[simp] theorem allField_packWord (opc : BitVec 4) (push all : Bool) (idx : BitVec 8) (value : BitVec 16) :
    allField (packWord opc push all idx value) = all := by
  simp [allField, packWord]

@[simp] theorem idxBits_packWord (opc : BitVec 4) (push all : Bool) (idx : BitVec 8) (value : BitVec 16) :
    (packWord opc push all idx value).extractLsb' 16 8 = idx := by
  ext i hi
  interval_cases i <;> simp [packWord]

@[simp] theorem valueBits_packWord (opc : BitVec 4) (push all : Bool) (idx : BitVec 8) (value : BitVec 16) :
    (packWord opc push all idx value).extractLsb' 0 16 = value := by
  ext i hi
  interval_cases i <;> simp [packWord]

/-! ### The bits a command reads -/

/-- The command with this opcode reads a target: TURN_ON, TURN_OFF and the four SET_* (30_encoding.md R73). -/
def readsTarget (opc : BitVec 4) : Bool := decide (1 ≤ opc.toNat ∧ opc.toNat ≤ 6)

/-- The command with this opcode reads `PUSH` and `VALUE`: the four SET_* (30_encoding.md R72, R75). -/
def readsOperand (opc : BitVec 4) : Bool := decide (3 ≤ opc.toNat ∧ opc.toNat ≤ 6)

/-- The read mask, packed from its fields: `OPC` always, `PUSH` and `VALUE` with an operand, `ALL` with a target, `IDX`
with a target that is not `All`. -/
theorem readMask_eq_packWord (w : Word) :
    readMask w = packWord (BitVec.allOnes 4) (readsOperand (opcField w)) (readsTarget (opcField w))
      (if readsTarget (opcField w) && !allField w then BitVec.allOnes 8 else 0#8)
      (if readsOperand (opcField w) then BitVec.allOnes 16 else 0#16) := by
  unfold readMask opcField allField
  generalize w.extractLsb' 28 4 = opc
  generalize w.getLsbD 26 = all
  revert opc all
  decide

theorem targetField_congr {w v : Word} (hall : allField v = allField w)
    (hidx : allField w = false → v.extractLsb' 16 8 = w.extractLsb' 16 8) : targetField v = targetField w := by
  unfold targetField idxField
  rw [hall]
  cases hw : allField w with
  | true => rfl
  | false => rw [hidx hw]

/-- The decoder reads a word's fields only as its opcode says. -/
theorem decode_congr {w v : Word} (hopc : opcField v = opcField w)
    (htarget : readsTarget (opcField w) = true → targetField v = targetField w)
    (hoperand : readsOperand (opcField w) = true →
      pushField v = pushField w ∧ valueField v = valueField w) : decode v = decode w := by
  unfold decode
  rw [hopc]
  simp only [readsTarget, readsOperand, decide_eq_true_eq] at htarget hoperand
  split <;> simp_all

/-- Words that agree on the bits the first one's command reads decode alike (30_encoding.md R76). -/
theorem decode_eq_of_agree {w v : Word} (h : w &&& readMask w = v &&& readMask w) : decode v = decode w := by
  rw [readMask_eq_packWord] at h
  have hopc := congrArg opcField h
  have hpush := congrArg pushField h
  have hall := congrArg allField h
  have hidx := congrArg (BitVec.extractLsb' 16 8) h
  have hvalue := congrArg (BitVec.extractLsb' 0 16) h
  simp only [opcField_and, opcField_packWord, pushField_and, pushField_packWord, allField_and, allField_packWord,
    BitVec.extractLsb'_and, idxBits_packWord, valueBits_packWord, BitVec.and_allOnes] at hopc hpush hall hidx hvalue
  refine decode_congr hopc.symm (fun ht => targetField_congr ?_ fun hone => ?_) fun hv => ⟨?_, ?_⟩
  · simpa only [ht, Bool.and_true] using hall.symm
  · simpa only [ht, hone, Bool.not_false, Bool.and_true, if_true, BitVec.and_allOnes] using hidx.symm
  · simpa only [hv, Bool.and_true] using hpush.symm
  · simp only [hv, if_true, BitVec.and_allOnes] at hvalue
    rw [valueField, valueField, hvalue]

/-- A packed word whose unread fields are 0 lies within its own read mask. -/
theorem packWord_and_readMask {opc : BitVec 4} {push all : Bool} {idx : BitVec 8} {value : BitVec 16}
    (hpush : push = true → readsOperand opc = true) (hvalue : readsOperand opc = false → value = 0#16)
    (hall : all = true → readsTarget opc = true)
    (hidx : (readsTarget opc && !all) = false → idx = 0#8) :
    packWord opc push all idx value &&& readMask (packWord opc push all idx value) =
      packWord opc push all idx value := by
  rw [readMask_eq_packWord, opcField_packWord, allField_packWord]
  apply word_ext
  · rw [opcField_and, opcField_packWord, opcField_packWord, BitVec.and_allOnes]
  · simpa using hpush
  · simpa using hall
  · simp [BitVec.extractLsb'_and, rsv_packWord]
  · rw [BitVec.extractLsb'_and, idxBits_packWord, idxBits_packWord]
    split
    next => exact BitVec.and_allOnes
    next h => rw [hidx (by simpa using h), BitVec.zero_and]
  · rw [BitVec.extractLsb'_and, valueBits_packWord, valueBits_packWord]
    split
    next => exact BitVec.and_allOnes
    next h => rw [hvalue (by simpa using h), BitVec.zero_and]

theorem idxBits_of_allBit {t : Target} (h : t.allBit = true) : t.idxBits = 0#8 := by
  cases t with
  | all => rfl
  | one i => exact absurd h Bool.false_ne_true

theorem packWord_target_and_readMask {opc : BitVec 4} {push : Bool} {t : Target} {value : BitVec 16}
    (ht : readsTarget opc = true) (hpush : push = true → readsOperand opc = true)
    (hvalue : readsOperand opc = false → value = 0#16) :
    packWord opc push t.allBit t.idxBits value &&& readMask (packWord opc push t.allBit t.idxBits value) =
      packWord opc push t.allBit t.idxBits value :=
  packWord_and_readMask hpush hvalue (fun _ => ht) fun h => idxBits_of_allBit (by simpa [ht] using h)

/-- The canonical word of every command has the bits the command does not read 0 (30_encoding.md R76). -/
theorem encode_and_readMask (i : Instr) : encode i &&& readMask (encode i) = encode i := by
  cases i with
  | turnOn t => exact packWord_target_and_readMask rfl nofun (fun _ => rfl)
  | turnOff t => exact packWord_target_and_readMask rfl nofun (fun _ => rfl)
  | setBrightness t v push => exact packWord_target_and_readMask rfl (fun _ => rfl) nofun
  | setRed t v push => exact packWord_target_and_readMask rfl (fun _ => rfl) nofun
  | setGreen t v push => exact packWord_target_and_readMask rfl (fun _ => rfl) nofun
  | setBlue t v push => exact packWord_target_and_readMask rfl (fun _ => rfl) nofun
  | _ => decide

/-- Settles O3: the decoder reads only the fields in the mask, and the encoder leaves the others 0. -/
theorem ignoredBitsDoNotMatter : Obligations.IgnoredBitsDoNotMatter := by
  unfold Obligations.IgnoredBitsDoNotMatter
  refine ⟨fun w v h => ?_, fun i _ => encode_and_readMask i⟩
  have hdecode := decode_eq_of_agree h
  exact ⟨hdecode, fun s => by rw [hdecode]⟩

/-! ### The reserved opcodes -/

/-- The commands of the reserved opcodes (30_encoding.md R78). -/
def reservedCommands : List Instr :=
  [.reserved0, .reserved8, .reserved9, .reservedA, .reservedB, .reservedC, .reservedD, .reservedE]

theorem beginInstr_of_reserved {i : Instr} (h : i ∈ reservedCommands) : beginInstr i = beginIllegal := by
  simp only [reservedCommands, List.mem_cons, List.not_mem_nil, or_false] at h
  obtain rfl | rfl | rfl | rfl | rfl | rfl | rfl | rfl := h <;> rfl

/-- A word with a reserved opcode decodes to one of the reserved commands (30_encoding.md R77, R78). -/
theorem decode_mem_reservedCommands {w : Word} (h : opcReserved w) : decode w ∈ reservedCommands := by
  obtain h0 | ⟨hlo, hhi⟩ : (opcField w).toNat = 0 ∨ 8 ≤ (opcField w).toNat ∧ (opcField w).toNat ≤ 14 := h
  all_goals unfold decode
  · simp [h0, reservedCommands]
  · interval_cases (opcField w).toNat <;> simp [reservedCommands]

/-- A reserved command accepted in READY is rejected with ILLEGAL_COMMAND (60_exceptions.md R205). -/
theorem exec_of_reserved {s : State} {i : Instr} (hs : Ready s) (h : i ∈ reservedCommands) :
    Answers (exec i s) { s with status := Status.illegalCommand } := by
  have hbegin : beginInstr i s = { s with status := Status.illegalCommand } := by
    rw [beginInstr_of_reserved h, beginIllegal, accept_of_ready _ s hs.life, reject_accepted _ s hs.notBusy]
  rw [exec_of_idle i s hs.notBusy, hbegin]
  exact congrArg _ (complete_of_idle { s with status := Status.illegalCommand } hs.notBusy)

/-- Settles O35: every reserved command starts as `beginIllegal`, and a reserved opcode decodes to a reserved command. -/
theorem reservedOpcodesAreIllegal : Obligations.ReservedOpcodesAreIllegal := by
  unfold Obligations.ReservedOpcodesAreIllegal
  exact ⟨fun s i hs hi => exec_of_reserved hs hi,
    fun s w hs hw => exec_of_reserved hs (decode_mem_reservedCommands hw)⟩

end Sys2Proof.Proofs
end

section
/-! Proofs of the pixel operations family: the value checks, the three channel setters, setBrightness and setRgb
(40_pixel_ops.md R100 to R104), and the hex string (R105), whose parser is inverted once: it answers only six hex
digits. -/

namespace Sys2Proof.Proofs

open Sys2Proof.Machine Sys2Proof.Laws Sys2Proof.Claims

/-! ### The value checks -/

@[simp] theorem brightnessLegal_iff (v : Rat) : brightnessLegal v = true ↔ 0 ≤ v ∧ v ≤ 1 :=
  decide_eq_true_iff

@[simp] theorem channelLegal_iff (v : Int) : channelLegal v = true ↔ 0 ≤ v ∧ v ≤ 255 :=
  decide_eq_true_iff

theorem checkBrightness_of_legal {v : Rat} (h : 0 ≤ v ∧ v ≤ 1) : checkBrightness v = .ok v :=
  if_pos ((brightnessLegal_iff v).2 h)

theorem checkBrightness_of_illegal {v : Rat} (h : ¬ (0 ≤ v ∧ v ≤ 1)) : checkBrightness v = .error .range :=
  if_neg (mt (brightnessLegal_iff v).1 h)

theorem checkChannel_of_legal {v : Int} (h : 0 ≤ v ∧ v ≤ 255) : checkChannel v = .ok (BitVec.ofInt 8 v) :=
  if_pos ((channelLegal_iff v).2 h)

theorem checkChannel_of_illegal {v : Int} (h : ¬ (0 ≤ v ∧ v ≤ 255)) : checkChannel v = .error .range :=
  if_neg (mt (channelLegal_iff v).1 h)

/-- A legal channel value is its byte: no scaling and no rounding (40_pixel_ops.md R101 to R103). -/
theorem toNat_ofInt_of_channel {v : Int} (h : 0 ≤ v ∧ v ≤ 255) : ((BitVec.ofInt 8 v).toNat : Int) = v := by
  rw [BitVec.toNat_ofInt]
  omega

/-! ### The operations on fields -/

/-- Settles O8: the byte stored is the one the channel check answers. -/
theorem setChannelStoresExactlyOrRejects : Obligations.SetChannelStoresExactlyOrRejects := by
  unfold Obligations.SetChannelStoresExactlyOrRejects
  refine fun p v => ⟨fun h0 h255 => ⟨BitVec.ofInt 8 v, toNat_ofInt_of_channel ⟨h0, h255⟩, ?_⟩, fun h => ?_⟩
  · simp [Pixel.setRed, Pixel.setGreen, Pixel.setBlue, checkChannel_of_legal ⟨h0, h255⟩, Pixel.withRed,
      Pixel.withGreen, Pixel.withBlue]
  · simp [Pixel.setRed, Pixel.setGreen, Pixel.setBlue, checkChannel_of_illegal h]

theorem setBrightness_of_legal (p : Pixel) {v : Rat} (h : 0 ≤ v ∧ v ≤ 1) :
    p.setBrightness v = .ok { p with bri := v } := by
  simp [Pixel.setBrightness, checkBrightness_of_legal h, Pixel.withBri]

theorem setBrightness_of_illegal (p : Pixel) {v : Rat} (h : ¬ (0 ≤ v ∧ v ≤ 1)) :
    p.setBrightness v = .error .range := by
  rw [Pixel.setBrightness, checkBrightness_of_illegal h]

/-- The first band of the brightness code (41_encoder.md R121): below 1/31 the floor is 0. -/
theorem briCode_eq_zero {v : Rat} (h0 : 0 ≤ v) (h : v < 1 / 31) : briCode v = 0#8 := by
  have hfloor : ((briScale : Rat) * v).floor = 0 := by
    change ⌊((31 : Nat) : Rat) * v⌋ = 0
    rw [Int.floor_eq_zero_iff]
    constructor <;> push_cast <;> linarith
  rw [briCode, hfloor]
  rfl

/-- Settles O9: the brightness check is the closed range, and the corner (0, 1/31) lies in it and in the first band. -/
theorem setBrightnessStoresExactlyOrRejects : Obligations.SetBrightnessStoresExactlyOrRejects := by
  unfold Obligations.SetBrightnessStoresExactlyOrRejects
  refine fun p v => ⟨fun h0 h1 => setBrightness_of_legal p ⟨h0, h1⟩, fun h => setBrightness_of_illegal p ?_,
    fun h0 h => ⟨setBrightness_of_legal p ⟨h0.le, ?_⟩, briCode_eq_zero h0.le h⟩⟩
  · rintro ⟨h0, h1⟩
    exact h.elim h0.not_gt h1.not_gt
  · linarith

/-- Settles O10: the four checks are one conjunction, and each stored byte is its operand. -/
theorem setRgbWritesAllOrNothing : Obligations.SetRgbWritesAllOrNothing := by
  unfold Obligations.SetRgbWritesAllOrNothing
  refine fun p r g b bri => ⟨?_, fun h => if_neg ?_⟩
  · rintro ⟨hr, hg, hb, hbri⟩
    exact ⟨_, if_pos (by simp [hr, hg, hb, hbri]), toNat_ofInt_of_channel hr, toNat_ofInt_of_channel hg,
      toNat_ofInt_of_channel hb, rfl⟩
  · simpa only [Bool.and_eq_true, channelLegal_iff, brightnessLegal_iff, and_assoc] using h

/-! ### The hex digits -/

/-- The three ranges of character codes with a digit value; a value below 10 has one code, the others two. -/
theorem hexval_eq_some_iff {c : Char} {n : Nat} :
    hexval c = some n ↔
      n < 10 ∧ c.toNat = n + 48 ∨ (10 ≤ n ∧ n < 16) ∧ (c.toNat = n + 87 ∨ c.toNat = n + 55) := by
  unfold hexval
  dsimp only
  split_ifs <;> simp <;> omega

theorem hexval_lt {c : Char} {n : Nat} (h : hexval c = some n) : n < 16 := by
  rw [hexval_eq_some_iff] at h
  omega

/-- The two rows of digits, lower and upper case, are the three ranges of codes (40_pixel_ops.md R105). -/
theorem hexval_eq_some_iff_digitRows (c : Char) (n : Nat) :
    hexval c = some n ↔
      n < 16 ∧ (['0', '1', '2', '3', '4', '5', '6', '7', '8', '9', 'a', 'b', 'c', 'd', 'e', 'f'][n]? = some c ∨
        ['0', '1', '2', '3', '4', '5', '6', '7', '8', '9', 'A', 'B', 'C', 'D', 'E', 'F'][n]? = some c) := by
  rw [hexval_eq_some_iff]
  by_cases hn : n < 16
  · interval_cases n <;> simp [eq_comm, ← Char.toNat_inj]
  · omega

/-- Two digits are one byte, without overflow (40_pixel_ops.md R105). -/
theorem hexByte_of_hexval {a b : Char} {x y : Nat} (ha : hexval a = some x) (hb : hexval b = some y) :
    hexByte a b = some (BitVec.ofNat 8 (16 * x + y)) ∧ (BitVec.ofNat 8 (16 * x + y)).toNat = 16 * x + y := by
  have hx := hexval_lt ha
  have hy := hexval_lt hb
  refine ⟨by rw [hexByte, ha, hb], ?_⟩
  rw [BitVec.toNat_ofNat]
  omega

theorem isSome_hexval_of_hexByte {a b : Char} {x : Byte} (h : hexByte a b = some x) :
    (hexval a).isSome ∧ (hexval b).isSome := by
  unfold hexByte at h
  split at h
  · simp_all
  · cases h

/-- The parser answers only six hex digits. -/
theorem sixHexDigits_of_parse {ds : List Char} {rgb : Byte × Byte × Byte} (h : parseHexDigits ds = some rgb) :
    ds.length = 6 ∧ ∀ c ∈ ds, (hexval c).isSome := by
  unfold parseHexDigits at h
  split at h
  · split at h
    next hr hg hb =>
      obtain ⟨h1, h2⟩ := isSome_hexval_of_hexByte hr
      obtain ⟨h3, h4⟩ := isSome_hexval_of_hexByte hg
      obtain ⟨h5, h6⟩ := isSome_hexval_of_hexByte hb
      simp [h1, h2, h3, h4, h5, h6]
    next => cases h
  · cases h

/-! ### The four prefixes -/

/-- What `stripHexPrefix` removes is one of the four prefixes (40_pixel_ops.md R105). -/
theorem exists_prefix_append_strip (str : List Char) : ∃ pre ∈ hexPrefixes, str = pre ++ stripHexPrefix str := by
  unfold stripHexPrefix
  split
  · exact ⟨['#'], by simp [hexPrefixes], rfl⟩
  · exact ⟨['0', 'x'], by simp [hexPrefixes], rfl⟩
  · exact ⟨['0', 'X'], by simp [hexPrefixes], rfl⟩
  · exact ⟨[], by simp [hexPrefixes], rfl⟩

/-- Two hex digits at the start are none of the prefixes: `#`, `x` and `X` are no hex digits. -/
theorem stripHexPrefix_of_digits {a b : Char} (ds : List Char) (ha : (hexval a).isSome) (hb : (hexval b).isSome) :
    stripHexPrefix (a :: b :: ds) = a :: b :: ds := by
  unfold stripHexPrefix
  split
  next h => cases h; cases ha
  next h => cases h; cases hb
  next h => cases h; cases hb
  next => rfl

theorem stripHexPrefix_append {pre : List Char} {a b : Char} (ds : List Char) (hpre : pre ∈ hexPrefixes)
    (ha : (hexval a).isSome) (hb : (hexval b).isSome) : stripHexPrefix (pre ++ a :: b :: ds) = a :: b :: ds := by
  simp only [hexPrefixes, List.mem_cons, List.not_mem_nil, or_false] at hpre
  obtain rfl | rfl | rfl | rfl := hpre
  · exact stripHexPrefix_of_digits ds ha hb
  all_goals rfl

/-! ### setFromHex -/

/-- Six digits after one of the prefixes are parsed pair by pair; only the brightness is left to check. -/
theorem setFromHex_of_digits (p : Pixel) (bri : Rat) {pre : List Char} {a b c d e f : Char} {na nb nc nd ne nf : Nat}
    (hpre : pre ∈ hexPrefixes) (ha : hexval a = some na) (hb : hexval b = some nb) (hc : hexval c = some nc)
    (hd : hexval d = some nd) (he : hexval e = some ne) (hf : hexval f = some nf) :
    p.setFromHex (pre ++ [a, b, c, d, e, f]) bri =
      if brightnessLegal bri then
        .ok ⟨bri, BitVec.ofNat 8 (16 * na + nb), BitVec.ofNat 8 (16 * nc + nd), BitVec.ofNat 8 (16 * ne + nf)⟩
      else .error .range := by
  have hstrip := stripHexPrefix_append [c, d, e, f] hpre (Option.isSome_of_eq_some ha) (Option.isSome_of_eq_some hb)
  simp only [Pixel.setFromHex, hstrip, parseHexDigits, hexByte_of_hexval ha hb, hexByte_of_hexval hc hd,
    hexByte_of_hexval he hf]

/-- A string that is not one of the prefixes and six hex digits fails before the brightness is looked at. -/
theorem setFromHex_of_no_digits (p : Pixel) (bri : Rat) {str : List Char}
    (h : ¬ ∃ pre ∈ hexPrefixes, ∃ ds : List Char, str = pre ++ ds ∧ ds.length = 6 ∧ ∀ c ∈ ds, (hexval c).isSome) :
    p.setFromHex str bri = .error .format := by
  have hparse : parseHexDigits (stripHexPrefix str) = none := by
    rw [Option.eq_none_iff_forall_ne_some]
    intro rgb hrgb
    obtain ⟨pre, hpre, hstr⟩ := exists_prefix_append_strip str
    exact h ⟨pre, hpre, _, hstr, sixHexDigits_of_parse hrgb⟩
  rw [Pixel.setFromHex, hparse]

/-- Settles O11: the parser answers exactly on one of the prefixes and six hex digits, and the digit rows are
the three code ranges of `hexval`. -/
theorem setFromHexParsesOrRejects : Obligations.SetFromHexParsesOrRejects := by
  unfold Obligations.SetFromHexParsesOrRejects
  refine ⟨fun p bri pre a b c d e f na nb nc nd ne nf hpre ha hb hc hd he hf => ?_,
    fun p bri _ h => setFromHex_of_no_digits p bri h, hexval_eq_some_iff_digitRows⟩
  rw [setFromHex_of_digits p bri hpre ha hb hc hd he hf]
  refine ⟨fun h => ⟨_, if_pos ((brightnessLegal_iff bri).2 h), ?_⟩, fun h => if_neg (mt (brightnessLegal_iff bri).1 h)⟩
  exact ⟨(hexByte_of_hexval ha hb).2, (hexByte_of_hexval hc hd).2, (hexByte_of_hexval he hf).2, rfl⟩

end Sys2Proof.Proofs
end

section
/-! Proofs of the commands family: TURN_ON, TURN_OFF, the four SET_* and UPDATE_ALL (42_commands.md R142 to R148), and what
a failed command leaves (R152). Every command ends in one of three ways: rejected, done without a push, or pushed. Each end
is described once; the commands of one shape then share one rule. -/

namespace Sys2Proof.Proofs

open Sys2Proof.Machine Sys2Proof.Laws Sys2Proof.Claims

/-! ### The target -/

theorem targetLegal_iff (t : Target) : targetLegal t = true ↔ LegalTarget t := by
  cases t with
  | all => simp [targetLegal, LegalTarget]
  | one i =>
    simp only [targetLegal, LegalTarget, decide_eq_true_iff, Target.one.injEq, forall_eq', Config.numPixels]
    omega

theorem targetCovers_iff (t : Target) (j : Nat) : targetCovers t j = true ↔ Targets t j := by
  cases t <;> simp [targetCovers, Targets]

/-- The write of every targeted pixel and of no other (42_commands.md R150). -/
theorem written_update (t : Target) (f : Pixel → Pixel) (pix : PixelFile) : Written t f pix (pix.update t f) := by
  intro j h
  simp only [update_getElem, targetCovers_iff]

/-! ### The ways a command ends -/

/-- A command that stands idle after its start is over. -/
theorem exec_of_begin_idle {i : Instr} {s b : State} (hs : s.busy = false) (hbegin : beginInstr i s = b)
    (hb : b.busy = false) : Answers (exec i s) b := by
  rw [Answers, exec_of_idle i s hs, hbegin, complete_of_idle b hb]

/-- The start of the push of `px` by an ordinary command accepted in `s`. -/
def pushStart (px : PixelFile) (s : State) : State := startPush .command { s with busy := true, pix := px }

/-- What an ordinary command that pushes `px` leaves (42_commands.md R142 to R148). -/
def afterPush (px : PixelFile) (s : State) : State := complete (pushStart px s)

theorem exec_of_begin_push {i : Instr} {s : State} {px : PixelFile} (hs : s.busy = false)
    (hbegin : beginInstr i s = pushStart px s) : Answers (exec i s) (afterPush px s) := by
  rw [Answers, exec_of_idle i s hs, hbegin, afterPush]

/-- The last byte on the wire is the red of the last pixel (20_memory.md R52, R53). -/
theorem frameBytes_last (pix : PixelFile) : (frameBytes pix)[31] = pix[7].red := by
  rw [frameBytes_getElem]
  rfl

/-- The push has run and `STATUS <- OK` has followed it. -/
theorem afterPush_eq (px : PixelFile) (s : State) :
    afterPush px s = { runPush (pushStart px s) with status := Status.ok, busy := false, job := none } :=
  complete_started .command { s with busy := true, pix := px } rfl

theorem pushed_afterPush (px : PixelFile) (s : State) : Pushed px s (afterPush px s) := by
  rw [afterPush_eq]
  constructor <;> simp [pushStart, levelAfter_dat_push, levelAfter_clk_push, frameBytes_last]

theorem sameOutside_afterPush (px : PixelFile) (s : State) : SameOutside s (afterPush px s) := by
  rw [afterPush_eq]
  constructor <;> simp [pushStart]

/-! ### Commands with a target -/

section WithTarget

variable {i : Instr} {t : Target} {body : State → State} {s : State}
variable (hbegin : beginInstr i = accept (withTarget t body)) (hs : Ready s)

include hbegin hs

/-- An index that names no pixel is reported before any operand check or write (42_commands.md R141). -/
theorem exec_of_illegal_target (ht : ¬ LegalTarget t) : Answers (exec i s) { s with status := Status.indexError } := by
  refine exec_of_begin_idle hs.notBusy ?_ hs.notBusy
  rw [hbegin, accept_of_ready _ s hs.life, withTarget, if_neg (mt (targetLegal_iff t).1 ht),
    reject_accepted _ s hs.notBusy]

theorem beginInstr_of_legal_target (ht : LegalTarget t) : beginInstr i s = body { s with busy := true } := by
  rw [hbegin, accept_of_ready _ s hs.life, withTarget, if_pos ((targetLegal_iff t).2 ht)]

end WithTarget

/-! ### TURN_ON, TURN_OFF and UPDATE_ALL -/

/-- A command that writes the targeted pixels with `f` and then always pushes. -/
theorem switch_result {i : Instr} {t : Target} {f : Pixel → Pixel} {s : State}
    (hbegin : beginInstr i = accept (withTarget t fun s => startPush .command (updatePixels t f s))) (hs : Ready s) :
    (¬ LegalTarget t → Answers (exec i s) { s with status := Status.indexError }) ∧
    (LegalTarget t → ∃ px u, Written t f s.pix px ∧ Answers (exec i s) u ∧ Pushed px s u ∧ SameOutside s u) :=
  ⟨exec_of_illegal_target hbegin hs, fun ht =>
    ⟨s.pix.update t f, afterPush (s.pix.update t f) s, written_update t f s.pix,
      exec_of_begin_push hs.notBusy (beginInstr_of_legal_target hbegin hs ht), pushed_afterPush _ s,
      sameOutside_afterPush _ s⟩⟩

/-- Settles O27: TURN_ON writes the on pixel and pushes. -/
theorem turnOnResult : Obligations.TurnOnResult := by
  unfold Obligations.TurnOnResult
  exact fun s t hs => switch_result (f := Pixel.turnOn) rfl hs

/-- Settles O28: TURN_OFF writes the off pixel and pushes. -/
theorem turnOffResult : Obligations.TurnOffResult := by
  unfold Obligations.TurnOffResult
  exact fun s t hs => switch_result (f := Pixel.turnOff) rfl hs

/-- Settles O33: UPDATE_ALL starts the push of the pixels it finds. -/
theorem updateAllResult : Obligations.UpdateAllResult := by
  unfold Obligations.UpdateAllResult
  exact fun s hs => ⟨_, exec_of_begin_push hs.notBusy (accept_of_ready _ s hs.life), pushed_afterPush s.pix s,
    sameOutside_afterPush s.pix s⟩

/-! ### The SET_* commands -/

/-- The rule of a SET_* command from its operand's check: `writer v` answers the write of `field v` exactly for `v` in
0..max. -/
theorem setRule_of_writer {cmd : Target → Int → Bool → Instr} {max : Int} {field : Int → Pixel → Pixel}
    {writer : Int → Except PixelError (Pixel → Pixel)}
    (hbegin : ∀ t v push, beginInstr (cmd t v push) = accept (withTarget t (setField (writer v) t push)))
    (hlegal : ∀ v, 0 ≤ v ∧ v ≤ max → writer v = .ok (field v))
    (hillegal : ∀ v, ¬ (0 ≤ v ∧ v ≤ max) → writer v = .error .range) : SetRule cmd max field := by
  intro s t v push hs
  have hbody := beginInstr_of_legal_target (hbegin t v push) hs
  refine ⟨exec_of_illegal_target (hbegin t v push) hs, fun ht hv => ?_, fun ht h0 hmax => ?_⟩
  · refine exec_of_begin_idle hs.notBusy ?_ hs.notBusy
    rw [hbody ht, hillegal v hv]
    exact reject_accepted _ s hs.notBusy
  · rw [hlegal v ⟨h0, hmax⟩] at hbody
    refine ⟨s.pix.update t (field v), written_update t _ s.pix, ?_, ?_⟩
    · rintro rfl
      exact exec_of_begin_idle hs.notBusy ((hbody ht).trans (succeed_accepted s t _ hs.notBusy)) hs.notBusy
    · rintro rfl
      exact ⟨_, exec_of_begin_push hs.notBusy (hbody ht), pushed_afterPush _ s, sameOutside_afterPush _ s⟩

/-- The host's percent is legal exactly where its brightness is (30_encoding.md R75, 42_commands.md R144). -/
theorem percentToBrightness_legal_iff (v : Int) :
    0 ≤ percentToBrightness v ∧ percentToBrightness v ≤ 1 ↔ 0 ≤ v ∧ v ≤ 100 := by
  have hval : percentToBrightness v = (v : Rat) / 100 := rfl
  rw [hval, le_div_iff₀ (by norm_num), div_le_one (by norm_num), zero_mul]
  norm_cast

/-- Percents 0 to 3 lie in the first band of the brightness code (41_encoder.md R121). -/
theorem headerByte_of_low_percent {v : Int} (h0 : 0 ≤ v) (h3 : v ≤ 3) : headerByte ((v : Rat) / 100) = 0xE0#8 := by
  have hlow : (0 : Rat) ≤ v := by exact_mod_cast h0
  have hhigh : (v : Rat) ≤ 3 := by exact_mod_cast h3
  rw [headerByte, briCode_eq_zero (by linarith) (by linarith)]
  rfl

/-- Settles O29: the percent is converted first, and its check is then that of the internal unit. -/
theorem setBrightnessResult : Obligations.SetBrightnessResult := by
  unfold Obligations.SetBrightnessResult
  refine ⟨setRule_of_writer (writer := brightnessWriter) (fun _ _ _ => rfl) (fun v hv => ?_) (fun v hv => ?_),
    fun v => headerByte_of_low_percent⟩
  · rw [brightnessWriter, checkBrightness_of_legal ((percentToBrightness_legal_iff v).2 hv)]
    rfl
  · rw [brightnessWriter, checkBrightness_of_illegal (mt (percentToBrightness_legal_iff v).1 hv)]

/-- The rule of a SET_* command whose operand is a channel value, `store` its write of the checked byte. -/
theorem setRule_of_channel {cmd : Target → Int → Bool → Instr} {writer : Int → Except PixelError (Pixel → Pixel)}
    {store : Byte → Pixel → Pixel}
    (hbegin : ∀ t v push, beginInstr (cmd t v push) = accept (withTarget t (setField (writer v) t push)))
    (hwriter : ∀ v, writer v = (checkChannel v).map store) :
    SetRule cmd 255 (fun v => store (BitVec.ofInt 8 v)) := by
  refine setRule_of_writer hbegin (fun v hv => ?_) (fun v hv => ?_)
  · rw [hwriter, checkChannel_of_legal hv]
    rfl
  · rw [hwriter, checkChannel_of_illegal hv]
    rfl

theorem redWriter_eq_map (v : Int) : redWriter v = (checkChannel v).map Pixel.withRed := by
  unfold redWriter
  cases checkChannel v <;> rfl

theorem greenWriter_eq_map (v : Int) : greenWriter v = (checkChannel v).map Pixel.withGreen := by
  unfold greenWriter
  cases checkChannel v <;> rfl

theorem blueWriter_eq_map (v : Int) : blueWriter v = (checkChannel v).map Pixel.withBlue := by
  unfold blueWriter
  cases checkChannel v <;> rfl

theorem channelExact : ChannelExact := fun _ h0 h255 => toNat_ofInt_of_channel ⟨h0, h255⟩

/-- Settles O30: SET_RED stores the byte the channel check answers. -/
theorem setRedResult : Obligations.SetRedResult := by
  unfold Obligations.SetRedResult
  exact ⟨setRule_of_channel (store := Pixel.withRed) (fun _ _ _ => rfl) redWriter_eq_map, channelExact⟩

/-- Settles O31: SET_GREEN stores the byte the channel check answers. -/
theorem setGreenResult : Obligations.SetGreenResult := by
  unfold Obligations.SetGreenResult
  exact ⟨setRule_of_channel (store := Pixel.withGreen) (fun _ _ _ => rfl) greenWriter_eq_map, channelExact⟩

/-- Settles O32: SET_BLUE stores the byte the channel check answers. -/
theorem setBlueResult : Obligations.SetBlueResult := by
  unfold Obligations.SetBlueResult
  exact ⟨setRule_of_channel (store := Pixel.withBlue) (fun _ _ _ => rfl) blueWriter_eq_map, channelExact⟩

/-! ### What a failed command leaves -/

/-- Every push ends its command with OK, TEARDOWN's included (42_commands.md R142 to R149). -/
theorem complete_startPush_status (job : Job) (s : State) (hs : s.busy = true) :
    (complete (startPush job s)).status = Status.ok := by
  rw [complete_started job s hs]
  cases job <;> rfl

/-- A command accepted by an idle block is rejected, which writes STATUS alone, or ends with OK. -/
theorem complete_beginInstr_cases (i : Instr) (s : State) (hs : s.busy = false) :
    (∃ code, complete (beginInstr i s) = { s with status := code }) ∨ (complete (beginInstr i s)).status = Status.ok := by
  obtain (⟨code, -, hbegin⟩ | ⟨-, t, f, hbegin⟩ | ⟨-, px, hbegin⟩) | ⟨-, -, hbegin⟩ := beginInstr_cases i s hs <;>
    rw [hbegin]
  case inl.inl => exact .inl ⟨code, complete_of_idle { s with status := code } hs⟩
  case inl.inr.inl =>
    exact .inr (congrArg State.status (complete_of_idle { s with pix := s.pix.update t f, status := Status.ok } hs))
  case inl.inr.inr => exact .inr (complete_startPush_status _ _ rfl)
  case inr => exact .inr (complete_startPush_status _ _ rfl)

/-- Settles O38: of the ways a command can end, only rejection leaves another status than OK. -/
theorem errorsChangeOnlyStatus : Obligations.ErrorsChangeOnlyStatus := by
  unfold Obligations.ErrorsChangeOnlyStatus
  intro i s u hs hu hstatus
  obtain rfl : complete (beginInstr i s) = u := by
    rw [Answers, exec_of_idle i s hs] at hu
    injection hu
  obtain ⟨code, hreject⟩ | hok := complete_beginInstr_cases i s hs
  · rw [hreject]
  · exact absurd hok hstatus

end Sys2Proof.Proofs
end

section
/-! Proofs of the exceptions family: the lifecycle check comes before every other (60_exceptions.md R206), and of several
failing checks the first in order is the one reported (R209). The status of a command accepted in READY is first written as
a function of the command, one check after the other; a word's status is that function of its decoded command. -/

namespace Sys2Proof.Proofs

open Sys2Proof.Machine Sys2Proof.Laws Sys2Proof.Claims

/-! ### The lifecycle check -/

theorem beginInstr_teardown :
    beginInstr .teardown = accept fun s => startPush .teardown (updatePixels .all Pixel.turnOff s) := rfl

/-- Every command starts by acceptance, whose lifecycle check guards all the rest (42_commands.md R140). -/
theorem exists_beginInstr_eq_accept (i : Instr) : ∃ body, beginInstr i = accept body := by
  cases i with
  | teardown => exact ⟨_, beginInstr_teardown⟩
  | _ => exact ⟨_, rfl⟩

/-- A command accepted outside READY writes NOT_READY and nothing else (60_exceptions.md R206). -/
theorem exec_of_not_ready (i : Instr) {s : State} (hs : s.busy = false) (hl : s.life ≠ .ready) :
    Answers (exec i s) { s with status := Status.notReady } := by
  obtain ⟨body, hbegin⟩ := exists_beginInstr_eq_accept i
  exact exec_of_begin_idle hs (hbegin ▸ accept_of_not_ready body s hs hl) hs

/-- Settles O36: the lifecycle check is the first thing every command does. -/
theorem notReadyRejectsEveryCommand : Obligations.NotReadyRejectsEveryCommand := by
  unfold Obligations.NotReadyRejectsEveryCommand
  exact fun s i hs hl => exec_of_not_ready i hs hl

/-! ### The status of a command accepted in READY -/

/-- The index check, before `rest` (42_commands.md R141, 60_exceptions.md R203). -/
def targetStatus (t : Target) (rest : BitVec 3) : BitVec 3 :=
  if targetLegal t then rest else Status.indexError

/-- The value check of a SET_* operand, legal in 0..max (60_exceptions.md R201). -/
def valueStatus (max v : Int) : BitVec 3 :=
  if ¬ (0 ≤ v ∧ v ≤ max) then Status.rangeError else Status.ok

/-- The status a command accepted in READY ends with, its checks in the order of 60_exceptions.md R209. -/
def readyStatus : Instr → BitVec 3
  | .turnOn t => targetStatus t Status.ok
  | .turnOff t => targetStatus t Status.ok
  | .setBrightness t v _ => targetStatus t (valueStatus 100 v)
  | .setRed t v _ => targetStatus t (valueStatus 255 v)
  | .setGreen t v _ => targetStatus t (valueStatus 255 v)
  | .setBlue t v _ => targetStatus t (valueStatus 255 v)
  | .updateAll => Status.ok
  | .teardown => Status.ok
  | .reserved0 | .reserved8 | .reserved9 | .reservedA | .reservedB | .reservedC | .reservedD | .reservedE =>
    Status.illegalCommand

theorem targetStatus_of_legal {t : Target} (h : LegalTarget t) (rest : BitVec 3) : targetStatus t rest = rest :=
  if_pos ((targetLegal_iff t).2 h)

theorem targetStatus_of_illegal {t : Target} (h : ¬ LegalTarget t) (rest : BitVec 3) :
    targetStatus t rest = Status.indexError :=
  if_neg (mt (targetLegal_iff t).1 h)

theorem readyStatus_of_reserved {i : Instr} (h : i ∈ reservedCommands) : readyStatus i = Status.illegalCommand := by
  simp only [reservedCommands, List.mem_cons, List.not_mem_nil, or_false] at h
  obtain rfl | rfl | rfl | rfl | rfl | rfl | rfl | rfl := h <;> rfl

/-- The command answers, and the state it leaves has this `STATUS`. -/
def EndsWith (i : Instr) (s : State) (code : BitVec 3) : Prop := ∃ u, Answers (exec i s) u ∧ u.status = code

section InReady

variable {s : State} (hs : Ready s)

include hs

/-- TURN_ON and TURN_OFF check the index alone. -/
theorem switch_endsWith {i : Instr} {t : Target} {f : Pixel → Pixel}
    (hbegin : beginInstr i = accept (withTarget t fun s => startPush .command (updatePixels t f s))) :
    EndsWith i s (targetStatus t Status.ok) := by
  obtain ⟨hillegal, hlegal⟩ := switch_result hbegin hs
  by_cases ht : LegalTarget t
  · rw [targetStatus_of_legal ht]
    obtain ⟨_, u, _, hu, hpushed, _⟩ := hlegal ht
    exact ⟨u, hu, hpushed.status⟩
  · rw [targetStatus_of_illegal ht]
    exact ⟨_, hillegal ht, rfl⟩

/-- A SET_* command checks the index, then the value. -/
theorem setRule_endsWith {cmd : Target → Int → Bool → Instr} {max : Int} {field : Int → Pixel → Pixel}
    (hrule : SetRule cmd max field) (t : Target) (v : Int) (push : Bool) :
    EndsWith (cmd t v push) s (targetStatus t (valueStatus max v)) := by
  obtain ⟨hindex, hrange, hok⟩ := hrule s t v push hs
  by_cases ht : LegalTarget t
  · rw [targetStatus_of_legal ht, valueStatus]
    split_ifs with hv
    · obtain ⟨px, _, hquiet, hpush⟩ := hok ht hv.1 hv.2
      cases push with
      | false => exact ⟨_, hquiet rfl, rfl⟩
      | true =>
        obtain ⟨u, hu, hpushed, _⟩ := hpush rfl
        exact ⟨u, hu, hpushed.status⟩
    · exact ⟨_, hrange ht hv, rfl⟩
  · rw [targetStatus_of_illegal ht]
    exact ⟨_, hindex ht, rfl⟩

theorem updateAll_endsWith : EndsWith .updateAll s Status.ok := by
  obtain ⟨u, hu, hpushed, _⟩ := updateAllResult s hs
  exact ⟨u, hu, hpushed.status⟩

theorem teardown_endsWith : EndsWith .teardown s Status.ok := by
  refine ⟨_, exec_of_idle .teardown s hs.notBusy, ?_⟩
  rw [beginInstr_teardown, accept_of_ready _ s hs.life]
  exact complete_startPush_status _ _ rfl

theorem reserved_endsWith {i : Instr} (h : i ∈ reservedCommands) : EndsWith i s (readyStatus i) :=
  ⟨_, exec_of_reserved hs h, (readyStatus_of_reserved h).symm⟩

/-- Every command accepted in READY ends with its `readyStatus`. -/
theorem endsWith_readyStatus (i : Instr) : EndsWith i s (readyStatus i) := by
  cases i with
  | turnOn t => exact switch_endsWith hs rfl
  | turnOff t => exact switch_endsWith hs rfl
  | setBrightness t v push => exact setRule_endsWith hs setBrightnessResult.1 t v push
  | setRed t v push => exact setRule_endsWith hs setRedResult.1 t v push
  | setGreen t v push => exact setRule_endsWith hs setGreenResult.1 t v push
  | setBlue t v push => exact setRule_endsWith hs setBlueResult.1 t v push
  | updateAll => exact updateAll_endsWith hs
  | teardown => exact teardown_endsWith hs
  | _ => exact reserved_endsWith hs (by simp [reservedCommands])

end InReady

/-! ### The status of a word -/

/-- A word's target names no pixel exactly with `ALL = 0` and its index outside 0..7 (60_exceptions.md R203). -/
theorem not_legalTarget_targetField_iff (w : Word) :
    ¬ LegalTarget (targetField w) ↔ allField w = false ∧ ¬ (0 ≤ idxField w ∧ idxField w ≤ 7) := by
  unfold targetField
  cases allField w <;> simp [LegalTarget]

theorem targetStatus_targetField (w : Word) (rest : BitVec 3) :
    targetStatus (targetField w) rest =
      if allField w = false ∧ ¬ (0 ≤ idxField w ∧ idxField w ≤ 7) then Status.indexError else rest := by
  split_ifs with h
  · exact targetStatus_of_illegal ((not_legalTarget_targetField_iff w).2 h) rest
  · exact targetStatus_of_legal (not_not.1 (mt (not_legalTarget_targetField_iff w).1 h)) rest

theorem indexBad_iff (w : Word) :
    indexBad w ↔ (1 ≤ (opcField w).toNat ∧ (opcField w).toNat ≤ 6) ∧
      allField w = false ∧ ¬ (0 ≤ idxField w ∧ idxField w ≤ 7) :=
  and_assoc.symm

theorem valueBad_iff (w : Word) :
    valueBad w ↔ (opcField w).toNat = 3 ∧ ¬ (0 ≤ valueField w ∧ valueField w ≤ 100) ∨
      (4 ≤ (opcField w).toNat ∧ (opcField w).toNat ≤ 6) ∧ ¬ (0 ≤ valueField w ∧ valueField w ≤ 255) :=
  or_congr Iff.rfl and_assoc.symm

/-- The status of a word accepted in READY: its opcode is checked before its index, its index before its value
(60_exceptions.md R209). -/
theorem readyStatus_decode (w : Word) :
    readyStatus (decode w) =
      if opcReserved w then Status.illegalCommand else if indexBad w then Status.indexError
      else if valueBad w then Status.rangeError else Status.ok := by
  by_cases hreserved : opcReserved w
  · rw [readyStatus_of_reserved (decode_mem_reservedCommands hreserved), if_pos hreserved]
  rw [if_neg hreserved, if_congr (indexBad_iff w) rfl (if_congr (valueBad_iff w) rfl rfl)]
  have hopc : 1 ≤ (opcField w).toNat ∧ (opcField w).toNat ≤ 7 ∨ (opcField w).toNat = 15 := by
    have hreserved' : ¬ ((opcField w).toNat = 0 ∨ 8 ≤ (opcField w).toNat ∧ (opcField w).toNat ≤ 14) := hreserved
    omega
  unfold decode
  obtain ⟨hlo, hhi⟩ | h15 := hopc
  · interval_cases (opcField w).toNat <;> simp [readyStatus, targetStatus_targetField, valueStatus]
  · simp [h15, readyStatus]

/-! ### The format of a hex colour -/

/-- The format error does not depend on the brightness (40_pixel_ops.md R105). -/
theorem setFromHex_eq_format_iff (p : Pixel) (str : List Char) (bri : Rat) :
    p.setFromHex str bri = .error .format ↔ parseHexDigits (stripHexPrefix str) = none := by
  unfold Pixel.setFromHex
  cases parseHexDigits (stripHexPrefix str) with
  | none => simp
  | some rgb => by_cases h : brightnessLegal bri = true <;> simp [h]

/-- Settles O37: outside READY by the lifecycle check, in READY by the status of the decoded command; a string's format is
checked whatever the brightness. -/
theorem firstFailingCheckWins : Obligations.FirstFailingCheckWins := by
  unfold Obligations.FirstFailingCheckWins
  refine ⟨fun s w hs => ?_, fun p str bri h => ?_⟩
  · by_cases hl : s.life = .ready
    · obtain ⟨u, hu, hstatus⟩ := endsWith_readyStatus ⟨hs, hl⟩ (decode w)
      exact ⟨u, hu, by rw [hstatus, readyStatus_decode, if_neg (not_not_intro hl)]; rfl⟩
    · exact ⟨_, exec_of_not_ready (decode w) hs hl, (if_pos hl).symm⟩
  · exact (setFromHex_eq_format_iff p str bri).2 ((setFromHex_eq_format_iff p str 0).1 h)

end Sys2Proof.Proofs
end

section
/-! Proofs of the reset and hazards family: what a step makes of a CONSTRUCT turn and of a foreign line write, busy or idle.
The refusals of 70_reset_and_hazards.md R231 and R240 follow, the latter because the invariant has the block own both lines
in READY. -/

namespace Sys2Proof.Proofs

open Sys2Proof.Machine Sys2Proof.Safety

/-! ### CONSTRUCT -/

theorem step_construct_of_busy {s : State} {p : Platform} {rest : List Turn} (ht : s.turns = .construct p :: rest)
    (hb : s.busy = true) : step s = .refused .constructWhileBusy := by
  simp [step, busyStep, hb, ht]

theorem step_construct_of_idle {s : State} {p : Platform} {rest : List Turn} (ht : s.turns = .construct p :: rest)
    (hb : s.busy = false) : step s = takeConstruct p { s with turns := rest } := by
  simp [step, takeTurn, hb, ht]

theorem takeConstruct_of_ready (p : Platform) {s : State} (hl : s.life = .ready) :
    takeConstruct p s = .refused .constructWhileReady := by
  simp [takeConstruct, hl]

/-- Settles O42: a busy step reads the turn before the lifecycle, an idle one takes CONSTRUCT, which READY refuses. -/
theorem constructRefusedWhileLive : Obligations.ConstructRefusedWhileLive := by
  unfold Obligations.ConstructRefusedWhileLive
  intro s p rest ht
  refine ⟨step_construct_of_busy ht, fun hb hl => ?_⟩
  rw [step_construct_of_idle ht hb]
  exact takeConstruct_of_ready p hl

/-! ### A line write by another agent -/

theorem step_foreignWrite_of_busy {s : State} {l : Line} {v : Level} {rest : List Turn}
    (ht : s.turns = .foreignWrite l v :: rest) (hb : s.busy = true) : step s = .refused .foreignLineWrite := by
  simp [step, busyStep, hb, ht]

theorem step_foreignWrite_of_idle {s : State} {l : Line} {v : Level} {rest : List Turn}
    (ht : s.turns = .foreignWrite l v :: rest) (hb : s.busy = false) :
    step s = takeForeignWrite l { s with turns := rest } := by
  simp [step, takeTurn, hb, ht]

theorem takeForeignWrite_of_owned (l : Line) {s : State} (hdat : s.ownDat = true) (hclk : s.ownClk = true) :
    takeForeignWrite l s = .refused .foreignLineWrite := by
  cases l with
  | dat => simp [takeForeignWrite, hdat]
  | clk => simp [takeForeignWrite, hclk]

/-- Settles O43: during a push every foreign write is refused; between commands the invariant has READY own both lines. -/
theorem foreignLineWriteRefusedInReady : Obligations.ForeignLineWriteRefusedInReady := by
  unfold Obligations.ForeignLineWriteRefusedInReady
  intro s l v rest hinv ht hl
  cases hb : s.busy with
  | true => exact step_foreignWrite_of_busy ht hb
  | false =>
    have hdat : s.ownDat = true := hinv.ownDatIff.2 (.inl hl)
    have hclk : s.ownClk = true := hinv.ownClkIff.2 (.inl hl)
    rw [step_foreignWrite_of_idle ht hb]
    exact takeForeignWrite_of_owned l hdat hclk

end Sys2Proof.Proofs
end

section
/-! The round trips of the command word (30_encoding.md R70 to R80): decode after encode field by field, and encode after
decode as the packed word of the fields read. -/

namespace Sys2Proof.Proofs

open Sys2Proof.Machine Sys2Proof.Laws Sys2Proof.Claims

/-! ### Decode of encode -/

/-- An index that fits `IDX` is read back, and `All` is read back whatever `IDX` holds (30_encoding.md R73, R74). -/
theorem targetField_packWord (opc : BitVec 4) (push : Bool) (value : BitVec 16) {t : Target} (ht : t.wf = true) :
    targetField (packWord opc push t.allBit t.idxBits value) = t := by
  rw [targetField, allField_packWord, idxField, idxBits_packWord]
  cases t with
  | all => rfl
  | one i =>
    have hi : -128 ≤ i ∧ i ≤ 127 := decide_eq_true_iff.1 ht
    have hread : (BitVec.ofInt 8 i).toInt = i := by
      rw [BitVec.toInt_ofInt]
      exact Int.bmod_eq_of_le (by omega) (by omega)
    exact congrArg Target.one hread

/-- An operand that fits `VALUE` is read back (30_encoding.md R75). -/
theorem valueField_packWord (opc : BitVec 4) (push all : Bool) (idx : BitVec 8) {v : Int} (hv : valueWf v = true) :
    valueField (packWord opc push all idx (BitVec.ofInt 16 v)) = v := by
  have hv' : -32768 ≤ v ∧ v ≤ 32767 := decide_eq_true_iff.1 hv
  rw [valueField, valueBits_packWord, BitVec.toInt_ofInt]
  exact Int.bmod_eq_of_le (by omega) (by omega)

theorem decode_packWord_switch {t : Target} (ht : t.wf = true) :
    decode (packWord 0x1#4 false t.allBit t.idxBits 0#16) = .turnOn t ∧
    decode (packWord 0x2#4 false t.allBit t.idxBits 0#16) = .turnOff t := by
  simp [decode, opcField_packWord, targetField_packWord, ht]

theorem decode_packWord_set {t : Target} {v : Int} (push : Bool) (ht : t.wf = true) (hv : valueWf v = true) :
    decode (packWord 0x3#4 push t.allBit t.idxBits (BitVec.ofInt 16 v)) = .setBrightness t v push ∧
    decode (packWord 0x4#4 push t.allBit t.idxBits (BitVec.ofInt 16 v)) = .setRed t v push ∧
    decode (packWord 0x5#4 push t.allBit t.idxBits (BitVec.ofInt 16 v)) = .setGreen t v push ∧
    decode (packWord 0x6#4 push t.allBit t.idxBits (BitVec.ofInt 16 v)) = .setBlue t v push := by
  simp [decode, opcField_packWord, targetField_packWord, valueField_packWord, ht, hv]

/-- Settles O1: each field a command has is read back from its place, and the opcode selects the command. -/
theorem decodeEncodeRoundTrip : Obligations.DecodeEncodeRoundTrip := by
  unfold Obligations.DecodeEncodeRoundTrip
  intro i hi
  cases i with
  | turnOn t => exact (decode_packWord_switch hi).1
  | turnOff t => exact (decode_packWord_switch hi).2
  | setBrightness t v push =>
    obtain ⟨ht, hv⟩ := Bool.and_eq_true_iff.1 hi
    exact (decode_packWord_set push ht hv).1
  | setRed t v push =>
    obtain ⟨ht, hv⟩ := Bool.and_eq_true_iff.1 hi
    exact (decode_packWord_set push ht hv).2.1
  | setGreen t v push =>
    obtain ⟨ht, hv⟩ := Bool.and_eq_true_iff.1 hi
    exact (decode_packWord_set push ht hv).2.2.1
  | setBlue t v push =>
    obtain ⟨ht, hv⟩ := Bool.and_eq_true_iff.1 hi
    exact (decode_packWord_set push ht hv).2.2.2
  | _ => decide

/-! ### Encode of decode -/

/-- The 8 bits of `IDX` name an index a signed byte can hold (30_encoding.md R74). -/
theorem targetField_wf (w : Word) : (targetField w).wf = true := by
  unfold targetField
  split
  · rfl
  · have hlo := (w.extractLsb' 16 8).le_toInt
    have hhi := (w.extractLsb' 16 8).toInt_lt
    rw [Target.wf, decide_eq_true_iff, idxField]
    omega

theorem valueField_wf (w : Word) : valueWf (valueField w) = true := by
  have hlo := (w.extractLsb' 0 16).le_toInt
  have hhi := (w.extractLsb' 0 16).toInt_lt
  rw [valueWf, decide_eq_true_iff, valueField]
  omega

/-- Every word decodes to a well-formed command (30_encoding.md R71). -/
theorem decode_wf (w : Word) : (decode w).wf = true := by
  unfold decode
  split <;> simp [Instr.wf, targetField_wf, valueField_wf]

@[simp] theorem allBit_targetField (w : Word) : (targetField w).allBit = allField w := by
  unfold targetField
  cases allField w <;> rfl

@[simp] theorem idxBits_targetField (w : Word) :
    (targetField w).idxBits = if allField w then 0#8 else w.extractLsb' 16 8 := by
  unfold targetField
  cases allField w with
  | true => rfl
  | false => exact BitVec.ofInt_toInt

@[simp] theorem ofInt_valueField (w : Word) : BitVec.ofInt 16 (valueField w) = w.extractLsb' 0 16 :=
  BitVec.ofInt_toInt

/-- The fields of `w` that its command reads, each at its place, and 0 elsewhere (30_encoding.md R76). -/
def fieldsRead (w : Word) : Word :=
  packWord (opcField w) (pushField w && readsOperand (opcField w)) (allField w && readsTarget (opcField w))
    (if readsTarget (opcField w) && !allField w then w.extractLsb' 16 8 else 0#8)
    (if readsOperand (opcField w) then w.extractLsb' 0 16 else 0#16)

theorem and_readMask_eq_fieldsRead (w : Word) : w &&& readMask w = fieldsRead w := by
  rw [readMask_eq_packWord, fieldsRead]
  apply word_ext
  · rw [opcField_and, opcField_packWord, opcField_packWord, BitVec.and_allOnes]
  · simp
  · simp
  · simp [BitVec.extractLsb'_and, rsv_packWord]
  · rw [BitVec.extractLsb'_and, idxBits_packWord, idxBits_packWord]
    split
    · exact BitVec.and_allOnes
    · exact BitVec.and_zero
  · rw [BitVec.extractLsb'_and, valueBits_packWord, valueBits_packWord]
    split
    · exact BitVec.and_allOnes
    · exact BitVec.and_zero

/-- By opcode: the encoder writes the fields the decoder has read. -/
theorem encode_decode_eq_fieldsRead (w : Word) : encode (decode w) = fieldsRead w := by
  unfold decode fieldsRead
  generalize opcField w = opc
  obtain ⟨n⟩ := opc
  fin_cases n <;> cases h : allField w <;> simp [encode, Instr.opcode, readsTarget, readsOperand, h]

/-- Settles O2: both sides are the packed word of the fields read. -/
theorem encodeDecodeKeepsTheBitsRead : Obligations.EncodeDecodeKeepsTheBitsRead := by
  unfold Obligations.EncodeDecodeKeepsTheBitsRead
  exact fun w => ⟨decode_wf w, (encode_decode_eq_fieldsRead w).trans (and_readMask_eq_fieldsRead w).symm⟩

/-- Settles O4: twelve closed words, evaluated. -/
theorem writtenOutWordsDecode : Obligations.WrittenOutWordsDecode := by
  unfold Obligations.WrittenOutWordsDecode
  decide

end Sys2Proof.Proofs
end

section
/-! What one command, and one step, does to a single part of the state, said once for the rules of the whole machine: the end
of a command, the pixels it writes, the start of construction, and a micro-step of the sequencer in any state at all. -/

namespace Sys2Proof.Proofs

open Sys2Proof.Machine Sys2Proof.Laws Sys2Proof.Claims Sys2Proof.Safety

/-! ### The end of a push -/

section Finish

variable (s : State)

@[simp] theorem finish_pix : (finish s).pix = s.pix := by unfold finish; split <;> rfl
@[simp] theorem finish_phase : (finish s).phase = s.phase := by unfold finish; split <;> rfl
@[simp] theorem finish_cnt : (finish s).cnt = s.cnt := by unfold finish; split <;> rfl
@[simp] theorem finish_snap : (finish s).snap = s.snap := by unfold finish; split <;> rfl
@[simp] theorem finish_dat : (finish s).dat = s.dat := by unfold finish; split <;> rfl
@[simp] theorem finish_clk : (finish s).clk = s.clk := by unfold finish; split <;> rfl
@[simp] theorem finish_trace : (finish s).trace = s.trace := by unfold finish; split <;> rfl
@[simp] theorem finish_callers : (finish s).callers = s.callers := by unfold finish; split <;> rfl
@[simp] theorem finish_turns : (finish s).turns = s.turns := by unfold finish; split <;> rfl
@[simp] theorem finish_grain : (finish s).grain = s.grain := by unfold finish; split <;> rfl

/-- The end of a push writes `STATUS <- OK`, unless no job waits for it. -/
theorem finish_status : (finish s).status = s.status ∨ (finish s).status = Status.ok := by
  unfold finish
  split
  · exact .inl rfl
  all_goals exact .inr rfl

/-- A push with a job ends its command (42_commands.md R140). -/
theorem finish_of_job (h : s.job ≠ none) : (finish s).busy = false ∧ (finish s).job = none := by
  unfold finish
  split
  next hnone => exact absurd hnone h
  all_goals exact ⟨rfl, rfl⟩

@[simp] theorem complete_pix : (complete s).pix = s.pix := by unfold complete; split <;> simp
@[simp] theorem complete_callers : (complete s).callers = s.callers := by unfold complete; split <;> simp
@[simp] theorem complete_turns : (complete s).turns = s.turns := by unfold complete; split <;> simp
@[simp] theorem complete_grain : (complete s).grain = s.grain := by unfold complete; split <;> simp

theorem complete_of_busy (h : s.busy = true) : complete s = finish (runPush s) := if_pos h

theorem complete_status : (complete s).status = s.status ∨ (complete s).status = Status.ok := by
  unfold complete
  split
  · exact finish_status (runPush s)
  · exact .inl rfl

theorem complete_trace : ∃ es, (complete s).trace = s.trace ++ es := by
  unfold complete
  split
  · exact ⟨pushEvents s.snap, by simp⟩
  · exact ⟨[], by simp⟩

end Finish

/-! ### The end of a command -/

/-- The start of TEARDOWN's push, accepted in `s` (42_commands.md R149). -/
def teardownStart (s : State) : State := startPush .teardown { s with busy := true, pix := PixelFile.off }

/-- What TEARDOWN leaves. -/
def afterTeardown (s : State) : State := complete (teardownStart s)

/-- How a command accepted by the idle block `s` ends: rejected, done without a push, pushed, or TEARDOWN. -/
inductive CommandEnd (i : Instr) (s : State) : State → Prop where
  | rejected (code : BitVec 3) (mem : code ∈ commandErrors) : CommandEnd i s { s with status := code }
  | quiet (ready : s.life = .ready) (t : Target) (f : Pixel → Pixel) :
      CommandEnd i s { s with pix := s.pix.update t f, status := Status.ok }
  | pushed (ready : s.life = .ready) (px : PixelFile) : CommandEnd i s (afterPush px s)
  | tornDown (ready : s.life = .ready) (teardown : i = .teardown) : CommandEnd i s (afterTeardown s)

/-- TEARDOWN switches every pixel off, whatever it held (42_commands.md R149, 40_pixel_ops.md R107). -/
theorem update_all_turnOff (pix : PixelFile) : pix.update .all Pixel.turnOff = PixelFile.off := by
  apply Vector.ext
  intro j hj
  rw [update_getElem pix _ _ j hj]
  simp [targetCovers, PixelFile.off, Pixel.turnOff]

theorem beginInstr_teardown_of_ready {s : State} (hl : s.life = .ready) : beginInstr .teardown s = teardownStart s := by
  rw [beginInstr_teardown, accept_of_ready _ s hl, updatePixels, update_all_turnOff, teardownStart]

/-- Every command accepted by an idle block comes to one of the four ends. -/
theorem commandEnd_complete (i : Instr) {s : State} (hs : s.busy = false) :
    CommandEnd i s (complete (beginInstr i s)) := by
  obtain (⟨code, hcode, hbegin⟩ | ⟨hl, t, f, hbegin⟩ | ⟨hl, px, hbegin⟩) | ⟨hl, rfl, -⟩ := beginInstr_cases i s hs
  · rw [hbegin, complete_of_idle { s with status := code } hs]
    exact .rejected code hcode
  · rw [hbegin, complete_of_idle { s with pix := s.pix.update t f, status := Status.ok } hs]
    exact .quiet hl t f
  · rw [hbegin]
    exact .pushed hl px
  · rw [beginInstr_teardown_of_ready hl]
    exact .tornDown hl rfl

theorem eq_complete_of_exec {i : Instr} {s u : State} (hs : s.busy = false) (hu : Answers (exec i s) u) :
    u = complete (beginInstr i s) := by
  rw [Answers, exec_of_idle i s hs] at hu
  injection hu with h
  exact h.symm

theorem commandEnd_of_exec {i : Instr} {s u : State} (hs : s.busy = false) (hu : Answers (exec i s) u) :
    CommandEnd i s u :=
  eq_complete_of_exec hs hu ▸ commandEnd_complete i hs

theorem afterTeardown_eq (s : State) :
    afterTeardown s =
      { runPush (teardownStart s) with
        ownDat := false, ownClk := false, sinkCalls := s.sinkCalls ++ [.release .dat, .release .clk],
        life := .released, status := Status.ok, busy := false, job := none } :=
  complete_started .teardown { s with busy := true, pix := PixelFile.off } rfl

/-- TEARDOWN sends the full all-off push (90_conflicts.md C2). -/
theorem pushed_afterTeardown (s : State) : Pushed PixelFile.off s (afterTeardown s) := by
  rw [afterTeardown_eq]
  constructor <;> simp [teardownStart, levelAfter_dat_push, levelAfter_clk_push, frameBytes_last]

/-! ### The start of a command -/

/-- Before its push a command has changed nothing outside the block. -/
theorem sameOutside_beginInstr (i : Instr) {s : State} (hs : s.busy = false) : SameOutside s (beginInstr i s) := by
  obtain (⟨code, -, hbegin⟩ | ⟨-, t, f, hbegin⟩ | ⟨-, px, hbegin⟩) | ⟨-, -, hbegin⟩ := beginInstr_cases i s hs <;>
    rw [hbegin] <;> constructor <;> rfl

/-- Before its push a command has written no line. -/
theorem beginInstr_trace (i : Instr) {s : State} (hs : s.busy = false) : (beginInstr i s).trace = s.trace := by
  obtain (⟨code, -, hbegin⟩ | ⟨-, t, f, hbegin⟩ | ⟨-, px, hbegin⟩) | ⟨-, -, hbegin⟩ := beginInstr_cases i s hs <;>
    rw [hbegin] <;> rfl

/-- The status codes a command can report (60_exceptions.md R200). -/
def commandStatuses : List (BitVec 3) := Status.ok :: commandErrors

theorem beginInstr_status (i : Instr) {s : State} (hs : s.busy = false) :
    (beginInstr i s).status = s.status ∨ (beginInstr i s).status ∈ commandStatuses := by
  obtain (⟨code, hcode, hbegin⟩ | ⟨-, t, f, hbegin⟩ | ⟨-, px, hbegin⟩) | ⟨-, -, hbegin⟩ := beginInstr_cases i s hs <;>
    rw [hbegin]
  case inl.inl => exact .inr (List.mem_cons_of_mem _ hcode)
  case inl.inr.inl => exact .inr List.mem_cons_self
  all_goals exact .inl rfl

/-! ### The pixels a command writes -/

/-- The command `i` may write the pixels of `t` with `f` (42_commands.md R142 to R149). -/
inductive WritesPixels : Instr → Target → (Pixel → Pixel) → Prop where
  | turnOn (t : Target) : WritesPixels (.turnOn t) t Pixel.turnOn
  | turnOff (t : Target) : WritesPixels (.turnOff t) t Pixel.turnOff
  | setBrightness (t : Target) (v : Int) (push : Bool) (legal : 0 ≤ v ∧ v ≤ 100) :
      WritesPixels (.setBrightness t v push) t (Pixel.withBri ((v : Rat) / 100))
  | setRed (t : Target) (v : Int) (push : Bool) (c : Byte) : WritesPixels (.setRed t v push) t (Pixel.withRed c)
  | setGreen (t : Target) (v : Int) (push : Bool) (c : Byte) : WritesPixels (.setGreen t v push) t (Pixel.withGreen c)
  | setBlue (t : Target) (v : Int) (push : Bool) (c : Byte) : WritesPixels (.setBlue t v push) t (Pixel.withBlue c)
  | teardown : WritesPixels .teardown .all Pixel.turnOff

/-- `new` is `old`, or `old` with a write that `i` may make. -/
def PixelsWritten (i : Instr) (old new : PixelFile) : Prop :=
  new = old ∨ ∃ t f, WritesPixels i t f ∧ new = old.update t f

theorem pixelsWritten_accept {i : Instr} {body : State → State} {s : State}
    (h : PixelsWritten i s.pix (body { s with busy := true }).pix) : PixelsWritten i s.pix (accept body s).pix := by
  unfold accept
  dsimp only
  split
  · exact h
  · exact .inl rfl

theorem pixelsWritten_withTarget {i : Instr} {t : Target} {body : State → State} {s : State}
    (h : PixelsWritten i s.pix (body s).pix) : PixelsWritten i s.pix (withTarget t body s).pix := by
  unfold withTarget
  split
  · exact h
  · exact .inl rfl

theorem pixelsWritten_setField {i : Instr} {writer : Except PixelError (Pixel → Pixel)} {t : Target} (push : Bool)
    (s : State) (h : ∀ f, writer = .ok f → WritesPixels i t f) :
    PixelsWritten i s.pix (setField writer t push s).pix := by
  unfold setField
  split
  · exact .inl rfl
  next f =>
    refine .inr ⟨t, f, h f rfl, ?_⟩
    cases push <;> rfl

/-- The four SET_* commands write what their operand's check answers. -/
theorem pixelsWritten_set {i : Instr} {writer : Except PixelError (Pixel → Pixel)} {t : Target} {push : Bool}
    (s : State) (hbegin : beginInstr i = accept (withTarget t (setField writer t push)))
    (h : ∀ f, writer = .ok f → WritesPixels i t f) : PixelsWritten i s.pix (beginInstr i s).pix := by
  rw [hbegin]
  exact pixelsWritten_accept (pixelsWritten_withTarget (s := { s with busy := true }) (pixelsWritten_setField push _ h))

theorem brightnessWriter_eq_ok {v : Int} {f : Pixel → Pixel} (h : brightnessWriter v = .ok f) :
    (0 ≤ v ∧ v ≤ 100) ∧ f = Pixel.withBri ((v : Rat) / 100) := by
  by_cases hv : 0 ≤ v ∧ v ≤ 100
  · rw [brightnessWriter, checkBrightness_of_legal ((percentToBrightness_legal_iff v).2 hv)] at h
    injection h with h
    exact ⟨hv, h.symm⟩
  · rw [brightnessWriter, checkBrightness_of_illegal (mt (percentToBrightness_legal_iff v).1 hv)] at h
    cases h

/-- A channel's writer answers the write of some byte or nothing. -/
theorem exists_of_map_eq_ok {v : Int} {store : Byte → Pixel → Pixel} {f : Pixel → Pixel}
    (h : (checkChannel v).map store = .ok f) : ∃ c, f = store c := by
  cases hc : checkChannel v with
  | error e => rw [hc] at h; cases h
  | ok c =>
    rw [hc] at h
    injection h with h
    exact ⟨c, h.symm⟩

/-- Every command writes the pixels of its own kind or none. -/
theorem pixelsWritten_beginInstr (i : Instr) (s : State) : PixelsWritten i s.pix (beginInstr i s).pix := by
  cases i with
  | turnOn t =>
    exact pixelsWritten_accept
      (pixelsWritten_withTarget (s := { s with busy := true }) (.inr ⟨t, _, .turnOn t, rfl⟩))
  | turnOff t =>
    exact pixelsWritten_accept
      (pixelsWritten_withTarget (s := { s with busy := true }) (.inr ⟨t, _, .turnOff t, rfl⟩))
  | setBrightness t v push =>
    refine pixelsWritten_set s rfl fun f hf => ?_
    obtain ⟨hv, rfl⟩ := brightnessWriter_eq_ok hf
    exact .setBrightness t v push hv
  | setRed t v push =>
    refine pixelsWritten_set s rfl fun f hf => ?_
    obtain ⟨c, rfl⟩ := exists_of_map_eq_ok ((redWriter_eq_map v).symm.trans hf)
    exact .setRed t v push c
  | setGreen t v push =>
    refine pixelsWritten_set s rfl fun f hf => ?_
    obtain ⟨c, rfl⟩ := exists_of_map_eq_ok ((greenWriter_eq_map v).symm.trans hf)
    exact .setGreen t v push c
  | setBlue t v push =>
    refine pixelsWritten_set s rfl fun f hf => ?_
    obtain ⟨c, rfl⟩ := exists_of_map_eq_ok ((blueWriter_eq_map v).symm.trans hf)
    exact .setBlue t v push c
  | updateAll => exact pixelsWritten_accept (.inl rfl)
  | teardown =>
    rw [beginInstr_teardown]
    exact pixelsWritten_accept (.inr ⟨.all, _, .teardown, rfl⟩)
  | _ => exact pixelsWritten_accept (.inl rfl)

/-- A command, busy block or idle, leaves the pixels its kind writes. -/
theorem pixelsWritten_of_exec {i : Instr} {s u : State} (hu : Answers (exec i s) u) : PixelsWritten i s.pix u.pix := by
  cases hs : s.busy with
  | true =>
    rw [Answers, exec_of_busy i s hs] at hu
    injection hu with h
    exact .inl (congrArg State.pix h.symm)
  | false =>
    rw [eq_complete_of_exec hs hu, complete_pix]
    exact pixelsWritten_beginInstr i s

/-! ### The start of construction -/

/-- The sink calls of a construction with a line refused: the clock line is not requested when the data line is refused, and
the data line is released when the clock line is (70_reset_and_hazards.md R230). -/
def refusalCalls (p : Platform) : List SinkCall :=
  if p.grantDat = true then [.acquire .dat true, .acquire .clk false, .release .dat] else [.acquire .dat false]

theorem beginConstruct_of_granted {p : Platform} (s : State) (hdat : p.grantDat = true) (hclk : p.grantClk = true) :
    beginConstruct p s = startPush .construct (takeLines p (clearForConstruct s)) := by
  simp [beginConstruct, hdat, hclk]

theorem beginConstruct_of_refused {p : Platform} (s : State) (h : p.grantDat = false ∨ p.grantClk = false) :
    beginConstruct p s = failConstruct (refusalCalls p) (clearForConstruct s) := by
  cases hdat : p.grantDat with
  | false => simp [beginConstruct, refusalCalls, hdat]
  | true =>
    have hclk : p.grantClk = false := h.resolve_left (by simp [hdat])
    simp [beginConstruct, refusalCalls, hdat, hclk]

/-- Construction stands before its push, or has failed. -/
theorem beginConstruct_cases (p : Platform) (s : State) :
    beginConstruct p s = startPush .construct (takeLines p (clearForConstruct s)) ∨
    beginConstruct p s = failConstruct (refusalCalls p) (clearForConstruct s) := by
  cases hdat : p.grantDat with
  | false => exact .inr (beginConstruct_of_refused s (.inl hdat))
  | true =>
    cases hclk : p.grantClk with
    | false => exact .inr (beginConstruct_of_refused s (.inr hclk))
    | true => exact .inl (beginConstruct_of_granted s hdat hclk)

section

variable (p : Platform) (s : State)

@[simp] theorem beginConstruct_pix : (beginConstruct p s).pix = PixelFile.off := by
  obtain h | h := beginConstruct_cases p s <;> rw [h] <;> rfl

@[simp] theorem beginConstruct_trace : (beginConstruct p s).trace = s.trace := by
  obtain h | h := beginConstruct_cases p s <;> rw [h] <;> rfl

@[simp] theorem beginConstruct_callers : (beginConstruct p s).callers = s.callers := by
  obtain h | h := beginConstruct_cases p s <;> rw [h] <;> rfl

@[simp] theorem beginConstruct_turns : (beginConstruct p s).turns = s.turns := by
  obtain h | h := beginConstruct_cases p s <;> rw [h] <;> rfl

@[simp] theorem beginConstruct_grain : (beginConstruct p s).grain = s.grain := by
  obtain h | h := beginConstruct_cases p s <;> rw [h] <;> rfl

theorem beginConstruct_status :
    (beginConstruct p s).status = s.status ∨ (beginConstruct p s).status = Status.hwAcquisitionError := by
  obtain h | h := beginConstruct_cases p s <;> rw [h]
  · exact .inl rfl
  · exact .inr rfl

end

/-! ### A micro-step in any state -/

/-- A micro-step, in any state: one line write, and only the sequencer registers besides. -/
structure OneWrite (s t : State) : Prop where
  frame : SequencerFrame s t
  trace : ∃ e, t.trace = s.trace ++ [e]

theorem oneWrite_lockPulseEnd (s : State) : OneWrite s (lockPulseEnd s) := by
  unfold lockPulseEnd
  dsimp only
  split
  all_goals exact ⟨by constructor <;> simp, _, lineWrite_trace s _ _⟩

theorem oneWrite_bitGroupEnd (s : State) : OneWrite s (bitGroupEnd s) := by
  unfold bitGroupEnd
  dsimp only
  split
  next => exact ⟨by constructor <;> simp, _, lineWrite_trace s _ _⟩
  next =>
    split
    all_goals exact ⟨by constructor <;> simp, _, lineWrite_trace s _ _⟩

theorem oneWrite_unlockPulseEnd (s : State) : OneWrite s (unlockPulseEnd s) := by
  unfold unlockPulseEnd
  dsimp only
  split
  all_goals exact ⟨by constructor <;> simp, _, lineWrite_trace s _ _⟩

theorem oneWrite_of_seqStep {s t : State} (h : seqStep s = some t) : OneWrite s t := by
  unfold seqStep at h
  split at h
  case h_3 => exact Option.some.inj h ▸ oneWrite_lockPulseEnd s
  case h_6 => exact Option.some.inj h ▸ oneWrite_bitGroupEnd s
  case h_8 => exact Option.some.inj h ▸ oneWrite_unlockPulseEnd s
  case h_9 => cases h
  case h_10 => cases h
  all_goals
    cases h
    exact ⟨by constructor <;> simp, _, lineWrite_trace s _ _⟩

/-- A push that advances makes a micro-step, and ends if that leads to IDLE. -/
theorem advancePush_cases {s t : State} (h : advancePush s = .next t) :
    ∃ s1, seqStep s = some s1 ∧ (s1.phase ≠ .idle ∧ t = s1 ∨ s1.phase = .idle ∧ t = finish s1) := by
  unfold advancePush at h
  split at h
  · cases h
  next s1 hs1 =>
    refine ⟨s1, hs1, ?_⟩
    split at h
    next hidle =>
      injection h with h
      exact .inr ⟨hidle, h.symm⟩
    next hrun =>
      injection h with h
      exact .inl ⟨hrun, h.symm⟩

/-- What an advancing push leaves unchanged, whether or not it ends with this write. -/
theorem advancePush_frame {s t : State} (h : advancePush s = .next t) :
    t.pix = s.pix ∧ t.callers = s.callers ∧ t.turns = s.turns ∧ (∃ e, t.trace = s.trace ++ [e]) ∧
      (t.status = s.status ∨ t.status = Status.ok) := by
  obtain ⟨s1, hs1, hcase⟩ := advancePush_cases h
  obtain ⟨hframe, e, htrace⟩ := oneWrite_of_seqStep hs1
  obtain ⟨-, rfl⟩ | ⟨-, rfl⟩ := hcase
  · exact ⟨hframe.pix, hframe.callers, hframe.turns, ⟨e, htrace⟩, .inl hframe.status⟩
  · refine ⟨?_, ?_, ?_, ⟨e, ?_⟩, hframe.status ▸ finish_status s1⟩
    · rw [finish_pix, hframe.pix]
    · rw [finish_callers, hframe.callers]
    · rw [finish_turns, hframe.turns]
    · rw [finish_trace, htrace]

end Sys2Proof.Proofs
end

section
/-! Proofs that every step keeps the invariant and the grouping of the trace. A command or a construction is taken in two
parts, its start and its completion; each keeps the invariant. Of the trace, with the writes still to come, a step changes
nothing, or it adds one whole push. -/

namespace Sys2Proof.Proofs

open Sys2Proof.Machine Sys2Proof.Laws Sys2Proof.Claims Sys2Proof.Safety

/-! ### Brightness -/

/-- Every pixel's brightness is one of `B`. -/
def AllBrightness (B : Rat → Prop) (pix : PixelFile) : Prop := ∀ (j : Nat) (h : j < 8), B pix[j].bri

/-- `B` holds of every brightness the host's percents stand for, 0 and 1 among them (42_commands.md R144). -/
def HoldsOfPercents (B : Rat → Prop) : Prop := ∀ v : Int, 0 ≤ v ∧ v ≤ 100 → B ((v : Rat) / 100)

section Brightness

variable {B : Rat → Prop} (hB : HoldsOfPercents B)

include hB

theorem holds_zero : B 0 := by
  simpa using hB 0 (by decide)

theorem holds_one : B 1 := by
  simpa using hB 100 (by decide)

theorem allBrightness_off : AllBrightness B PixelFile.off := by
  intro j hj
  have hoff : PixelFile.off[j] = Pixel.off := by simp [PixelFile.off]
  rw [hoff]
  exact holds_zero hB

theorem writesPixels_keeps_brightness {i : Instr} {t : Target} {f : Pixel → Pixel} (hw : WritesPixels i t f) (p : Pixel)
    (hp : B p.bri) : B (f p).bri := by
  cases hw with
  | turnOn => exact holds_one hB
  | turnOff => exact holds_zero hB
  | setBrightness _ v _ legal => exact hB v legal
  | setRed => exact hp
  | setGreen => exact hp
  | setBlue => exact hp
  | teardown => exact holds_zero hB

theorem allBrightness_of_pixelsWritten {i : Instr} {old new : PixelFile} (hw : PixelsWritten i old new)
    (h : AllBrightness B old) : AllBrightness B new := by
  obtain rfl | ⟨t, f, hf, rfl⟩ := hw
  · exact h
  · intro j hj
    rw [update_getElem old t f j hj]
    split
    · exact writesPixels_keeps_brightness hB hf _ (h j hj)
    · exact h j hj

end Brightness

/-- A brightness in its declared domain (10_state.md R22), as `PixelsLegal` has it. -/
abbrev LegalBrightness (b : Rat) : Prop := 0 ≤ b ∧ b ≤ 1

theorem legalBrightness_percents : HoldsOfPercents LegalBrightness := fun v hv =>
  (percentToBrightness_legal_iff v).2 hv

theorem pixelsLegal_off : PixelsLegal PixelFile.off := allBrightness_off legalBrightness_percents

theorem pixelsLegal_of_pixelsWritten {i : Instr} {old new : PixelFile} (hw : PixelsWritten i old new)
    (h : PixelsLegal old) : PixelsLegal new :=
  allBrightness_of_pixelsWritten legalBrightness_percents hw h

/-! ### The invariant between commands and at the start of a push -/

/-- The invariant of an idle block. -/
structure SoundIdle (s : State) : Prop where
  pixelsLegal : PixelsLegal s.pix
  cntInRange : s.cnt ≤ lockPulses
  notBusy : s.busy = false
  idle : s.phase = .idle
  noJob : s.job = none
  ownDatIff : s.ownDat = true ↔ s.life = .ready
  ownClkIff : s.ownClk = true ↔ s.life = .ready
  clockLow : s.life = .ready → s.clk = false
  hostsAtLeastOne : 1 ≤ s.hosts

theorem inv_of_soundIdle {s : State} (h : SoundIdle s) : Inv s where
  pixelsLegal := h.pixelsLegal
  cntInRange := h.cntInRange
  busyIffPushing := by simp [h.notBusy, h.idle]
  busyIffJob := by simp [h.notBusy, h.noJob]
  jobFitsLife := by simp [h.noJob]
  ownDatIff := by simp [h.ownDatIff, h.notBusy]
  ownClkIff := by simp [h.ownClkIff, h.notBusy]
  clockLowBetween := fun hl _ => h.clockLow hl
  snapshotIsFrame := by simp [h.notBusy]
  sequencerInRow := by simp [SequencerInRow, h.idle]
  hostsAtLeastOne := h.hostsAtLeastOne

theorem phase_of_inv_idle {s : State} (h : Inv s) (hb : s.busy = false) : s.phase = .idle := by
  simpa [hb] using h.busyIffPushing

theorem soundIdle_of_inv {s : State} (h : Inv s) (hb : s.busy = false) : SoundIdle s where
  pixelsLegal := h.pixelsLegal
  cntInRange := h.cntInRange
  notBusy := hb
  idle := phase_of_inv_idle h hb
  noJob := by simpa [hb] using h.busyIffJob
  ownDatIff := by simpa [hb] using h.ownDatIff
  ownClkIff := by simpa [hb] using h.ownClkIff
  clockLow := fun hl => h.clockLowBetween hl hb
  hostsAtLeastOne := h.hostsAtLeastOne

theorem inv_startPush {job : Job} {s : State} (hpix : PixelsLegal s.pix) (hb : s.busy = true)
    (hfit : s.life = .ready ↔ job ≠ .construct) (hdat : s.ownDat = true) (hclk : s.ownClk = true)
    (hhosts : 1 ≤ s.hosts) : Inv (startPush job s) where
  pixelsLegal := hpix
  cntInRange := le_refl lockPulses
  busyIffPushing := by simp [hb]
  busyIffJob := by simp [hb]
  jobFitsLife := by
    intro j hj
    cases hj
    exact hfit
  ownDatIff := by simp [hb, hdat]
  ownClkIff := by simp [hb, hclk]
  clockLowBetween := by simp [hb]
  snapshotIsFrame := fun _ => rfl
  sequencerInRow := by simp [SequencerInRow, lockPulses]
  hostsAtLeastOne := hhosts

theorem inv_withTurns {s : State} (h : Inv s) (ts : List Turn) : Inv { s with turns := ts } := { h with }

theorem inv_afterWord {s : State} (h : Inv s) (k : Nat) (ws : List Word) (rest : List Turn) :
    Inv (afterWord k ws rest s) :=
  { h with hostsAtLeastOne := by simpa [afterWord] using h.hostsAtLeastOne }

/-! ### The start of a command and of construction -/

theorem inv_beginInstr (i : Instr) {s : State} (h : Inv s) (hb : s.busy = false) : Inv (beginInstr i s) := by
  have hpix := pixelsLegal_of_pixelsWritten (pixelsWritten_beginInstr i s) h.pixelsLegal
  have hidle := soundIdle_of_inv h hb
  obtain (⟨code, -, hbegin⟩ | ⟨-, t, f, hbegin⟩ | ⟨hl, px, hbegin⟩) | ⟨hl, -, hbegin⟩ := beginInstr_cases i s hb <;>
    rw [hbegin] at hpix ⊢
  case inl.inl => exact inv_of_soundIdle { hidle with }
  case inl.inr.inl => exact inv_of_soundIdle { hidle with pixelsLegal := hpix }
  all_goals
    have hdat := hidle.ownDatIff.2 hl
    have hclk := hidle.ownClkIff.2 hl
    exact inv_startPush hpix rfl (by simp [hl]) hdat hclk h.hostsAtLeastOne

theorem inv_beginConstruct (p : Platform) {s : State} (h : Inv s) (hb : s.busy = false) (hl : s.life ≠ .ready) :
    Inv (beginConstruct p s) := by
  obtain hbegin | hbegin := beginConstruct_cases p s <;> rw [hbegin]
  · exact inv_startPush pixelsLegal_off rfl (by simpa [takeLines] using hl) rfl rfl h.hostsAtLeastOne
  · have hidle := soundIdle_of_inv h hb
    exact inv_of_soundIdle
      { pixelsLegal := pixelsLegal_off
        cntInRange := Nat.zero_le _
        notBusy := rfl
        idle := rfl
        noJob := rfl
        ownDatIff := by simpa [failConstruct, hl] using hidle.ownDatIff
        ownClkIff := by simpa [failConstruct, hl] using hidle.ownClkIff
        clockLow := nofun
        hostsAtLeastOne := h.hostsAtLeastOne }

/-! ### The end of a push -/

theorem sequencerFrame_runPush (s : State) : SequencerFrame s (runPush s) := by
  constructor <;> simp

/-- When the sequencer of a sound block has come to IDLE with the clock low, what follows the push keeps the invariant. -/
theorem inv_finish {s x : State} (h : Inv s) (hb : s.busy = true) (hframe : SequencerFrame s x) (hidle : x.phase = .idle)
    (hlow : x.clk = false) (hcnt : x.cnt = 0) : Inv (finish x) := by
  obtain ⟨j, hj⟩ := Option.ne_none_iff_exists'.1 (h.busyIffJob.1 hb)
  have hlife := h.jobFitsLife j hj
  have hdat : x.ownDat = true := hframe.ownDat.trans (h.ownDatIff.2 (.inr hb))
  have hclk : x.ownClk = true := hframe.ownClk.trans (h.ownClkIff.2 (.inr hb))
  have hxj : x.job = some j := hframe.job.trans hj
  have hpix : PixelsLegal x.pix := hframe.pix ▸ h.pixelsLegal
  have hhosts : 1 ≤ x.callers.length := hframe.callers ▸ h.hostsAtLeastOne
  apply inv_of_soundIdle
  constructor
  case pixelsLegal => simpa using hpix
  case cntInRange => simp [hcnt]
  case notBusy => exact (finish_of_job x (by simp [hxj])).1
  case idle => simpa using hidle
  case noJob => exact (finish_of_job x (by simp [hxj])).2
  case clockLow => simp [hlow]
  case hostsAtLeastOne => simpa using hhosts
  all_goals
    cases j with
    | command => simp [finish, hxj, hdat, hclk, hframe.life, hlife.2 nofun]
    | teardown => simp [finish, hxj]
    | construct => simp [finish, hxj, hdat, hclk]

theorem inv_complete {s : State} (h : Inv s) : Inv (complete s) := by
  cases hb : s.busy with
  | false => exact (complete_of_idle s hb).symm ▸ h
  | true =>
    rw [complete_of_busy s hb]
    exact inv_finish h hb (sequencerFrame_runPush s) rfl (levelAfter_clk_push _ _) rfl

/-! ### A micro-step -/

/-- The running push of a sound block makes a micro-step of its table. -/
theorem microStep_of_inv {s t : State} (h : Inv s) (hb : s.busy = true) (hadv : advancePush s = .next t) :
    ∃ s1 e, MicroStep s s1 e ∧ (s1.phase ≠ .idle ∧ t = s1 ∨ s1.phase = .idle ∧ t = finish s1) := by
  obtain ⟨s1, e, hseq, hmicro⟩ := seqStep_of_inRow s (h.busyIffPushing.1 hb) h.sequencerInRow
  obtain ⟨s2, hseq2, hcase⟩ := advancePush_cases hadv
  rw [hseq] at hseq2
  cases hseq2
  exact ⟨s1, e, hmicro, hcase⟩

theorem inv_microStep {s t : State} {e : LineEvent} (h : Inv s) (hb : s.busy = true) (hmicro : MicroStep s t e)
    (hrun : t.phase ≠ .idle) : Inv t := by
  have hf := hmicro.frame
  have htb : t.busy = true := hf.busy.trans hb
  constructor
  case pixelsLegal => exact hf.pix ▸ h.pixelsLegal
  case cntInRange =>
    have hs := h.cntInRange
    obtain hle | heq := hmicro.cntBound
    · exact hle.trans hs
    · rw [heq]
      decide
  case busyIffPushing => simp [htb, hrun]
  case busyIffJob => rw [hf.busy, hf.job]; exact h.busyIffJob
  case jobFitsLife => rw [hf.job, hf.life]; exact h.jobFitsLife
  case ownDatIff => rw [hf.ownDat, hf.life, hf.busy]; exact h.ownDatIff
  case ownClkIff => rw [hf.ownClk, hf.life, hf.busy]; exact h.ownClkIff
  case clockLowBetween => simp [htb]
  case snapshotIsFrame => rw [hf.busy, hf.snap, hf.pix]; exact h.snapshotIsFrame
  case sequencerInRow => exact hmicro.inRow
  case hostsAtLeastOne => rw [hosts_eq_length, hf.callers]; exact h.hostsAtLeastOne

theorem inv_advancePush {s t : State} (h : Inv s) (hb : s.busy = true) (hadv : advancePush s = .next t) : Inv t := by
  obtain ⟨s1, e, hmicro, ⟨hrun, rfl⟩ | ⟨hidle, rfl⟩⟩ := microStep_of_inv h hb hadv
  · exact inv_microStep h hb hmicro hrun
  · obtain ⟨hlow, hcnt, -⟩ := hmicro.atEnd hidle
    exact inv_finish h hb hmicro.frame hidle hlow hcnt

/-- Settles O48: by the cause of the step; a whole command or construction is its start and then its completion. -/
theorem stepKeepsTheInvariant : Obligations.StepKeepsTheInvariant := by
  unfold Obligations.StepKeepsTheInvariant
  intro s t h hstep
  cases step_cases s t hstep with
  | push busy polite adv => exact inv_advancePush h busy adv
  | pass idle ts eq => exact eq ▸ inv_withTurns h ts
  | command idle k w ws rest turns word run =>
    rw [eq_complete_of_exec (s := afterWord k ws rest s) idle run]
    exact inv_complete (inv_beginInstr _ (inv_afterWord h k ws rest) idle)
  | start idle k w ws rest turns word eq => exact eq ▸ inv_beginInstr _ (inv_afterWord h k ws rest) idle
  | construct idle life p rest turns eq =>
    have hbegun := inv_beginConstruct p (inv_withTurns h rest) idle life
    obtain rfl | rfl := eq
    · exact inv_complete hbegun
    · exact hbegun

/-! ### The trace with the writes still to come -/

/-- The trace, with the writes the running push has still to make. -/
def fullTrace (s : State) : List LineEvent := s.trace ++ pendingWrites s

theorem pendingWrites_of_idle {s : State} (h : s.phase = .idle) : pendingWrites s = [] := by
  simp [pendingWrites, h]

theorem fullTrace_of_idle {s : State} (h : s.phase = .idle) : fullTrace s = s.trace := by
  rw [fullTrace, pendingWrites_of_idle h, List.append_nil]

/-- At the start row all the writes of a push are still to come (43_sequencer.md R177). -/
theorem pendingWrites_startPush (job : Job) (s : State) :
    pendingWrites (startPush job s) = pushEvents (frameBytes s.pix) := rfl

/-- A command or construction has been started: it is over already, or stands at the start row of its push. -/
def AtStart (b : State) : Prop := b.busy = false ∨ ∃ job s, s.busy = true ∧ b = startPush job s

theorem atStart_beginInstr (i : Instr) {s : State} (hb : s.busy = false) : AtStart (beginInstr i s) := by
  obtain (⟨code, -, hbegin⟩ | ⟨-, t, f, hbegin⟩ | ⟨-, px, hbegin⟩) | ⟨-, -, hbegin⟩ := beginInstr_cases i s hb <;>
    rw [hbegin]
  case inl.inl => exact .inl hb
  case inl.inr.inl => exact .inl hb
  all_goals exact .inr ⟨_, _, rfl, rfl⟩

theorem atStart_beginConstruct (p : Platform) (s : State) : AtStart (beginConstruct p s) := by
  obtain hbegin | hbegin := beginConstruct_cases p s <;> rw [hbegin]
  · exact .inr ⟨_, _, rfl, rfl⟩
  · exact .inl rfl

/-- Completion makes exactly the writes that were still to come. -/
theorem fullTrace_complete {b : State} (h : AtStart b) : fullTrace (complete b) = fullTrace b := by
  obtain hb | ⟨job, s, hb, rfl⟩ := h
  · rw [complete_of_idle b hb]
  · rw [complete_started job s hb, fullTrace_of_idle (by simp), fullTrace, pendingWrites_startPush]
    simp

/-- `full` is `trace`, or `trace` and one whole push. -/
def GrownByAPush (trace full : List LineEvent) : Prop := full = trace ∨ ∃ snap, full = trace ++ pushEvents snap

/-- A start adds one whole push to the writes still to come, or nothing. -/
theorem grownByAPush_atStart {b : State} (hinv : Inv b) (h : AtStart b) : GrownByAPush b.trace (fullTrace b) := by
  obtain hb | ⟨job, s, -, rfl⟩ := h
  · exact .inl (fullTrace_of_idle (phase_of_inv_idle hinv hb))
  · exact .inr ⟨frameBytes s.pix, rfl⟩

theorem grownByAPush_beginInstr (i : Instr) {s : State} (h : Inv s) (hb : s.busy = false) :
    GrownByAPush s.trace (fullTrace (beginInstr i s)) := by
  have hgrown := grownByAPush_atStart (inv_beginInstr i h hb) (atStart_beginInstr i hb)
  rwa [beginInstr_trace i hb] at hgrown

theorem grownByAPush_beginConstruct (p : Platform) {s : State} (h : Inv s) (hb : s.busy = false) (hl : s.life ≠ .ready) :
    GrownByAPush s.trace (fullTrace (beginConstruct p s)) := by
  have hgrown := grownByAPush_atStart (inv_beginConstruct p h hb hl) (atStart_beginConstruct p s)
  rwa [beginConstruct_trace p s] at hgrown

theorem fullTrace_advancePush {s t : State} (h : Inv s) (hb : s.busy = true) (hadv : advancePush s = .next t) :
    fullTrace t = fullTrace s := by
  obtain ⟨s1, e, hmicro, hcase⟩ := microStep_of_inv h hb hadv
  have hs1 : fullTrace s1 = fullTrace s := by
    rw [fullTrace, fullTrace, hmicro.trace, hmicro.pending]
    simp
  obtain ⟨-, rfl⟩ | ⟨hidle, rfl⟩ := hcase
  · exact hs1
  · rw [← hs1, fullTrace_of_idle hidle, fullTrace_of_idle (by simpa using hidle), finish_trace]

/-- A step of a sound block adds one whole push to the full trace, or nothing. -/
theorem grownByAPush_step {s t : State} (h : Inv s) (hstep : step s = .next t) :
    GrownByAPush (fullTrace s) (fullTrace t) := by
  cases step_cases s t hstep with
  | push busy polite adv => exact .inl (fullTrace_advancePush h busy adv)
  | pass idle ts eq => exact .inl (by rw [eq]; rfl)
  | command idle k w ws rest turns word run =>
    have hidle : (afterWord k ws rest s).busy = false := idle
    rw [eq_complete_of_exec hidle run, fullTrace_complete (atStart_beginInstr _ hidle), fullTrace_of_idle (phase_of_inv_idle h idle)]
    exact grownByAPush_beginInstr _ (inv_afterWord h k ws rest) idle
  | start idle k w ws rest turns word eq =>
    rw [eq, fullTrace_of_idle (phase_of_inv_idle h idle)]
    exact grownByAPush_beginInstr _ (inv_afterWord h k ws rest) idle
  | construct idle life p rest turns eq =>
    have hfull : fullTrace t = fullTrace (beginConstruct p { s with turns := rest }) := by
      obtain rfl | rfl := eq
      · exact fullTrace_complete (atStart_beginConstruct p _)
      · rfl
    rw [hfull, fullTrace_of_idle (phase_of_inv_idle h idle)]
    exact grownByAPush_beginConstruct p (inv_withTurns h rest) idle life

/-- Settles O49: the full trace of a row of whole pushes stays one when nothing or one push is added. -/
theorem stepKeepsTheTraceGrouped : Obligations.StepKeepsTheTraceGrouped := by
  unfold Obligations.StepKeepsTheTraceGrouped
  rintro s t h ⟨frames, hframes⟩ hstep
  obtain hsame | ⟨snap, hmore⟩ := grownByAPush_step h hstep
  · exact ⟨frames, hsame.trans hframes⟩
  · refine ⟨frames ++ [snap], hmore.trans ?_⟩
    rw [fullTrace, hframes]
    simp

/-- Settles O50: each step keeps both, so a run does, by induction on its length. -/
theorem everyRunIsSafe : Obligations.EveryRunIsSafe := by
  unfold Obligations.EveryRunIsSafe
  intro n
  induction n with
  | zero => exact fun s h hg => ⟨h, hg⟩
  | succ n ih =>
    exact fun s h hg => ⟨h, hg, fun t hstep =>
      ih t (stepKeepsTheInvariant s t h hstep) (stepKeepsTheTraceGrouped s t h hg hstep)⟩

end Sys2Proof.Proofs
end

section
/-! Proofs of the rules of commands and steps: TEARDOWN, that every command completes, the pseudo-instruction SET_PIXEL, the
step of an idle block, and what no step or command can change. Each follows from the ends of a command or the causes of a
step. -/

namespace Sys2Proof.Proofs

open Sys2Proof.Machine Sys2Proof.Laws Sys2Proof.Claims Sys2Proof.Safety

/-! ### Commands -/

/-- Settles O34: TEARDOWN ends as `afterTeardown`, which leaves RELEASED, where every command is rejected. -/
theorem teardownResult : Obligations.TeardownResult := by
  unfold Obligations.TeardownResult
  refine fun s hs => ⟨fun hl => ⟨afterTeardown s, ?_, pushed_afterTeardown s, ?_⟩, exec_of_not_ready .teardown hs⟩
  · rw [Answers, exec_of_idle .teardown s hs, beginInstr_teardown_of_ready hl]
    rfl
  · rw [afterTeardown_eq]
    exact ⟨rfl, rfl, rfl, rfl, rfl, rfl, rfl, fun i => exec_of_not_ready i rfl nofun⟩

/-- Settles O39: each of the four ends is idle, with a status of the list, and makes one whole push or none. -/
theorem everyCommandCompletes : Obligations.EveryCommandCompletes := by
  unfold Obligations.EveryCommandCompletes
  intro i s hs
  refine ⟨_, exec_of_idle i s hs, ?_⟩
  have hend := commandEnd_complete i hs
  generalize complete (beginInstr i s) = u at hend ⊢
  cases hend with
  | rejected code mem => exact ⟨hs, List.mem_cons_of_mem _ mem, .inl ⟨rfl, rfl, rfl⟩⟩
  | quiet => exact ⟨hs, List.mem_cons_self, .inl ⟨rfl, rfl, rfl⟩⟩
  | pushed ready px =>
    have hpushed := pushed_afterPush px s
    exact ⟨hpushed.busy, hpushed.status ▸ List.mem_cons_self, .inr ⟨hpushed.pix ▸ hpushed.trace, hpushed.status⟩⟩
  | tornDown =>
    have hpushed := pushed_afterTeardown s
    exact ⟨hpushed.busy, hpushed.status ▸ List.mem_cons_self, .inr ⟨hpushed.pix ▸ hpushed.trace, hpushed.status⟩⟩

/-- Settles O52: a busy block and a block outside READY write no line, and a sound READY block owns both. -/
theorem commandsWriteOnlyOwnedLines : Obligations.CommandsWriteOnlyOwnedLines := by
  unfold Obligations.CommandsWriteOnlyOwnedLines
  intro i s u h hu hchange
  by_cases hl : s.life = .ready
  · exact ⟨h.ownDatIff.2 (.inl hl), h.ownClkIff.2 (.inl hl)⟩
  · have hquiet : exec i s = .next s ∨ exec i s = .next { s with status := Status.notReady } := by
      obtain hb | hb := Bool.eq_false_or_eq_true s.busy
      · exact .inl (exec_of_busy i s hb)
      · exact .inr (exec_of_not_ready i hb hl)
    rw [hu] at hquiet
    obtain hquiet | hquiet := hquiet <;> cases hquiet <;> simp at hchange

/-- Settles O53: of the four ends only TEARDOWN's touches lifecycle or ownership. -/
theorem onlyTeardownLeavesReady : Obligations.OnlyTeardownLeavesReady := by
  unfold Obligations.OnlyTeardownLeavesReady
  intro i s u hs hu
  cases commandEnd_of_exec hs hu with
  | rejected => exact .inl (by constructor <;> rfl)
  | quiet => exact .inl (by constructor <;> rfl)
  | pushed ready px => exact .inl (sameOutside_afterPush px s)
  | tornDown ready teardown =>
    rw [afterTeardown_eq]
    exact .inr ⟨teardown, ready, rfl, rfl, rfl⟩

/-- What holds of every pixel through every write a command may make holds after the command. -/
theorem forall_pix_of_pixelsWritten {i : Instr} {old new : PixelFile} {R : Pixel → Pixel → Prop}
    (hrefl : ∀ p, R p p) (hwrite : ∀ t f, WritesPixels i t f → ∀ p, R p (f p)) (hw : PixelsWritten i old new)
    (j : Nat) (h : j < 8) : R old[j] new[j] := by
  obtain rfl | ⟨t, f, hf, rfl⟩ := hw
  · exact hrefl _
  · rw [update_getElem old t f j h]
    split
    · exact hwrite t f hf _
    · exact hrefl _

/-- Settles O56: the writes a SET_* command may make are those of its own field. -/
theorem setCommandsWriteOneFieldOnly : Obligations.SetCommandsWriteOneFieldOnly := by
  unfold Obligations.SetCommandsWriteOneFieldOnly
  intro s u t v push j h
  refine ⟨fun hu => forall_pix_of_pixelsWritten (R := fun p q => q = { p with bri := q.bri }) (fun _ => rfl) ?_
      (pixelsWritten_of_exec hu) j h,
    fun hu => forall_pix_of_pixelsWritten (R := fun p q => q = { p with red := q.red }) (fun _ => rfl) ?_
      (pixelsWritten_of_exec hu) j h,
    fun hu => forall_pix_of_pixelsWritten (R := fun p q => q = { p with green := q.green }) (fun _ => rfl) ?_
      (pixelsWritten_of_exec hu) j h,
    fun hu => forall_pix_of_pixelsWritten (R := fun p q => q = { p with blue := q.blue }) (fun _ => rfl) ?_
      (pixelsWritten_of_exec hu) j h⟩
  all_goals
    rintro _ _ ⟨⟩ p
    rfl

/-! ### SET_PIXEL -/

theorem runAll_cons_of_exec {i : Instr} {s t : State} (is : List Instr) (h : exec i s = .next t) :
    runAll (i :: is) s = runAll is t := by
  rw [runAll, h]

/-- Two writes to the same target are one write of the composed fields. -/
theorem written_trans {t : Target} {f g : Pixel → Pixel} {a b c : PixelFile} (hf : Written t f a b)
    (hg : Written t g b c) : Written t (fun p => g (f p)) a c := by
  intro j h
  rw [hg j h, hf j h]
  split <;> rfl

/-- A legal SET_* command without `PUSH` writes its field and OK, and nothing else. -/
theorem exec_set_quiet {cmd : Target → Int → Bool → Instr} {max : Int} {field : Int → Pixel → Pixel} {s : State}
    {t : Target} {v : Int} (hrule : SetRule cmd max field) (hs : Ready s) (ht : LegalTarget t) (h0 : 0 ≤ v)
    (hmax : v ≤ max) :
    ∃ px, Written t (field v) s.pix px ∧ exec (cmd t v false) s = .next { s with pix := px, status := Status.ok } := by
  obtain ⟨-, -, hok⟩ := hrule s t v false hs
  obtain ⟨px, hpx, hquiet, -⟩ := hok ht h0 hmax
  exact ⟨px, hpx, hquiet rfl⟩

/-- Settles O57: four quiet writes compose to one, and UPDATE_ALL pushes the pixels they leave. -/
theorem setPixelSendsOneFrame : Obligations.SetPixelSendsOneFrame := by
  unfold Obligations.SetPixelSendsOneFrame
  refine ⟨fun s t r g b percent hs ht hr0 hr hg0 hg hb0 hb hp0 hp => ?_, rfl⟩
  obtain ⟨p1, hw1, he1⟩ := exec_set_quiet setRedResult.1 hs ht hr0 hr
  obtain ⟨p2, hw2, he2⟩ := exec_set_quiet (s := { s with pix := p1, status := Status.ok }) setGreenResult.1
    ⟨hs.notBusy, hs.life⟩ ht hg0 hg
  obtain ⟨p3, hw3, he3⟩ := exec_set_quiet (s := { s with pix := p2, status := Status.ok }) setBlueResult.1
    ⟨hs.notBusy, hs.life⟩ ht hb0 hb
  obtain ⟨p4, hw4, he4⟩ := exec_set_quiet (s := { s with pix := p3, status := Status.ok }) setBrightnessResult.1
    ⟨hs.notBusy, hs.life⟩ ht hp0 hp
  obtain ⟨u, he5, hpushed, hsame⟩ := updateAllResult { s with pix := p4, status := Status.ok } ⟨hs.notBusy, hs.life⟩
  refine ⟨p4, u, written_trans (written_trans (written_trans hw1 hw2) hw3) hw4, ?_, { hpushed with }, { hsame with }⟩
  simp only [Answers, Pseudo.expand]
  rw [runAll_cons_of_exec _ he1, runAll_cons_of_exec _ he2, runAll_cons_of_exec _ he3, runAll_cons_of_exec _ he4,
    runAll_cons_of_exec _ he5]
  rfl

/-! ### The step of an idle block -/

theorem step_of_idle {s : State} (hb : s.busy = false) : step s = takeTurn s := by
  simp [step, hb]

/-- Settles O5: the turn accepts the head of the caller's queue, and at this grain runs it whole. -/
theorem stepRunsTheDecodedCommand : Obligations.StepRunsTheDecodedCommand := by
  unfold Obligations.StepRunsTheDecodedCommand
  intro s k w ws rest hb hg ht hc
  rw [step_of_caller s k w ws rest hb ht hc, acceptWord]
  simp only [afterWord, hg]

/-- The queue a word is put in front of: caller 0's, or a new one where there is no caller. -/
theorem presentWord_callers (w : Word) (s : State) :
    (presentWord w s).callers = (w :: s.callers.headD []) :: s.callers.tail := by
  unfold presentWord
  cases s.callers <;> rfl

/-- Settles O6: the placed word is the head of caller 0's queue, and caller 0's turn is next. -/
theorem stepRunsThePlacedWord : Obligations.StepRunsThePlacedWord := by
  unfold Obligations.StepRunsThePlacedWord
  intro s nbits w hb
  have hcallers := presentWord_callers (tableWord nbits w) s
  rw [State.withFetchWord,
    stepRunsTheDecodedCommand (presentWord (tableWord nbits w) s) 0 (tableWord nbits w) (s.callers.headD []) s.turns hb rfl
      rfl (by rw [hcallers]; rfl), hcallers]
  cases hc : s.callers <;> rfl

/-- Settles O7: with no turn left an idle step takes none. -/
theorem idleBlockHoldsItsState : Obligations.IdleBlockHoldsItsState := by
  unfold Obligations.IdleBlockHoldsItsState
  intro s hb ht
  simp only [step_of_idle hb, takeTurn, ht]

theorem takeWord_of_all_empty {s : State} (k : Nat) (h : s.callers.all List.isEmpty = true) : takeWord k s = none := by
  unfold takeWord
  split
  next w ws hk =>
    have hempty := List.all_eq_true.1 h _ (List.mem_of_getElem? hk)
    cases hempty
  next => rfl

/-- Settles O59: with every queue empty a polite turn passes, and the turns are no part of the observation. -/
theorem quiescentRunIsOver : Obligations.QuiescentRunIsOver := by
  unfold Obligations.QuiescentRunIsOver
  intro s hq hpolite
  obtain ⟨⟨hb, hempty⟩, -⟩ : (s.busy = false ∧ s.callers.all List.isEmpty = true) ∧ s.phase = .idle := by
    simpa [State.quiescent] using hq
  suffices hpass : ∃ ts, step s = .next { s with turns := ts } by
    obtain ⟨ts, hstep⟩ := hpass
    exact ⟨_, hstep, rfl, hq⟩
  rcases hts : s.turns with _ | ⟨turn, rest⟩
  · exact ⟨s.turns, idleBlockHoldsItsState s hb hts⟩
  · refine ⟨rest, ?_⟩
    cases turn with
    | caller k =>
      have hnone := takeWord_of_all_empty (s := { s with turns := rest }) k hempty
      simp only [step_of_idle hb, takeTurn, hts, takeCaller, hnone]
    | awaitIdle => simp only [step_of_idle hb, takeTurn, hts]
    | construct p => simp [hts, waitsPolitely] at hpolite
    | foreignWrite l v => simp [hts, waitsPolitely] at hpolite

/-! ### What no step changes -/

/-- Settles O51: a push adds one write or its whole rest, every other part of a step none. -/
theorem traceOnlyGrows : Obligations.TraceOnlyGrows := by
  unfold Obligations.TraceOnlyGrows
  intro s t hstep
  cases step_cases s t hstep with
  | push busy polite adv =>
    obtain ⟨-, -, -, ⟨e, htrace⟩, -⟩ := advancePush_frame adv
    exact ⟨[e], htrace⟩
  | pass idle ts eq => exact ⟨[], by simp [eq]⟩
  | command idle k w ws rest turns word run =>
    have hidle : (afterWord k ws rest s).busy = false := idle
    rw [eq_complete_of_exec hidle run]
    exact beginInstr_trace (decode w) hidle ▸ complete_trace _
  | start idle k w ws rest turns word eq =>
    have hidle : (afterWord k ws rest s).busy = false := idle
    exact ⟨[], by rw [eq, beginInstr_trace _ hidle, List.append_nil]; rfl⟩
  | construct idle life p rest turns eq =>
    have htrace := beginConstruct_trace p { s with turns := rest }
    obtain rfl | rfl := eq
    · obtain ⟨es, hes⟩ := complete_trace (beginConstruct p { s with turns := rest })
      exact ⟨es, by rw [runConstruct, hes, htrace]⟩
    · exact ⟨[], by rw [htrace, List.append_nil]⟩

/-- `new` is `old`, or a status a command can report. -/
def StatusKeptOrReported (old new : BitVec 3) : Prop := new = old ∨ new ∈ commandStatuses

theorem statusKeptOrReported_complete {old : BitVec 3} {b : State} (h : StatusKeptOrReported old b.status) :
    StatusKeptOrReported old (complete b).status := by
  obtain heq | heq := complete_status b <;> rw [heq]
  · exact h
  · exact .inr List.mem_cons_self

/-- A step keeps STATUS, reports a command's end, or is a construction that failed. -/
theorem step_status {s t : State} (hstep : step s = .next t) :
    StatusKeptOrReported s.status t.status ∨
    t.status = Status.hwAcquisitionError ∧ ∃ p rest, s.turns = .construct p :: rest := by
  cases step_cases s t hstep with
  | push busy polite adv =>
    obtain ⟨-, -, -, -, heq | heq⟩ := advancePush_frame adv <;> rw [heq]
    · exact .inl (.inl rfl)
    · exact .inl (.inr List.mem_cons_self)
  | pass idle ts eq => exact .inl (.inl (by rw [eq]))
  | command idle k w ws rest turns word run =>
    have hidle : (afterWord k ws rest s).busy = false := idle
    rw [eq_complete_of_exec hidle run]
    exact .inl (statusKeptOrReported_complete (beginInstr_status (decode w) hidle))
  | start idle k w ws rest turns word eq =>
    have hidle : (afterWord k ws rest s).busy = false := idle
    exact .inl (eq ▸ beginInstr_status (decode w) hidle)
  | construct idle life p rest turns eq =>
    have hbegin := beginConstruct_status p { s with turns := rest }
    obtain rfl | rfl := eq
    · obtain heq | heq := complete_status (beginConstruct p { s with turns := rest }) <;> rw [runConstruct, heq]
      · exact hbegin.imp .inl fun h => ⟨h, p, rest, turns⟩
      · exact .inl (.inr List.mem_cons_self)
    · exact hbegin.imp .inl fun h => ⟨h, p, rest, turns⟩

theorem ne_of_mem_commandStatuses : ∀ code ∈ commandStatuses, code ≠ 2#3 ∧ code ≠ 7#3 ∧ code ≠ 4#3 := by
  decide

/-- Settles O54: a changed STATUS is one a command reports, none of the three codes, or that of a failed construction. -/
theorem statusCodesAStepCanProduce : Obligations.StatusCodesAStepCanProduce := by
  unfold Obligations.StatusCodesAStepCanProduce
  intro s t hstep hchange
  obtain (hsame | hmem) | ⟨hfail, hturns⟩ := step_status hstep
  · exact absurd hsame hchange
  · obtain ⟨h2, h7, h4⟩ := ne_of_mem_commandStatuses _ hmem
    exact ⟨h2, h7, fun h => absurd h h4⟩
  · rw [hfail]
    exact ⟨by decide, by decide, fun _ => hturns⟩

/-- A step leaves every queue as it is, or takes the head of one. -/
theorem step_callers {s t : State} (hstep : step s = .next t) :
    t.callers = s.callers ∨ ∃ k w ws, s.callers[k]? = some (w :: ws) ∧ t.callers = s.callers.set k ws := by
  cases step_cases s t hstep with
  | push busy polite adv =>
    obtain ⟨-, hcallers, -⟩ := advancePush_frame adv
    exact .inl hcallers
  | pass idle ts eq => exact .inl (by rw [eq])
  | command idle k w ws rest turns word run =>
    have hidle : (afterWord k ws rest s).busy = false := idle
    rw [eq_complete_of_exec hidle run, complete_callers, (sameOutside_beginInstr (decode w) hidle).callers]
    exact .inr ⟨k, w, ws, word, rfl⟩
  | start idle k w ws rest turns word eq =>
    have hidle : (afterWord k ws rest s).busy = false := idle
    rw [eq, (sameOutside_beginInstr (decode w) hidle).callers]
    exact .inr ⟨k, w, ws, word, rfl⟩
  | construct idle life p rest turns eq =>
    obtain rfl | rfl := eq
    · exact .inl (by simp [runConstruct])
    · exact .inl (by simp)

/-- Settles O55: the queue whose head was taken is the one that may differ. -/
theorem callersKeepTheirOrder : Obligations.CallersKeepTheirOrder := by
  unfold Obligations.CallersKeepTheirOrder
  intro s t hstep
  obtain hsame | ⟨k, w, ws, hk, hset⟩ := step_callers hstep
  · rw [hsame]
    exact ⟨rfl, 0, fun _ _ => rfl, .inl rfl⟩
  · have hlt : k < s.callers.length := (List.getElem?_eq_some_iff.1 hk).1
    rw [hset]
    refine ⟨List.length_set, k, fun j hj => List.getElem?_set_ne hj.symm, .inr ⟨w, ws, hk, ?_⟩⟩
    exact List.getElem?_set_self hlt

/-- A step leaves the pixels a command writes, or construction's all off. -/
theorem step_pix {s t : State} (hstep : step s = .next t) :
    t.pix = PixelFile.off ∨ ∃ i, PixelsWritten i s.pix t.pix := by
  cases step_cases s t hstep with
  | push busy polite adv =>
    obtain ⟨hpix, -⟩ := advancePush_frame adv
    exact .inr ⟨.updateAll, .inl hpix⟩
  | pass idle ts eq => exact .inr ⟨.updateAll, .inl (by rw [eq])⟩
  | command idle k w ws rest turns word run => exact .inr ⟨decode w, pixelsWritten_of_exec (s := afterWord k ws rest s) run⟩
  | start idle k w ws rest turns word eq =>
    exact .inr ⟨decode w, eq ▸ pixelsWritten_beginInstr (decode w) (afterWord k ws rest s)⟩
  | construct idle life p rest turns eq =>
    obtain rfl | rfl := eq
    · exact .inl (by simp [runConstruct])
    · exact .inl (by simp)

/-- A host percent, converted (10_state.md section 1). -/
abbrev PercentBrightness (b : Rat) : Prop := ∃ p : Nat, p ≤ 100 ∧ b = (p : Rat) / 100

theorem percentBrightness_percents : HoldsOfPercents PercentBrightness := by
  rintro v ⟨h0, h100⟩
  lift v to Nat using h0
  exact ⟨v, by exact_mod_cast h100, by rw [Int.cast_natCast]⟩

/-- Settles O58: every write of a command, and all off, keep what holds of the percents. -/
theorem stepKeepsBrightnessPercents : Obligations.StepKeepsBrightnessPercents := by
  unfold Obligations.StepKeepsBrightnessPercents
  intro s t h hstep
  obtain hoff | ⟨i, hw⟩ := step_pix hstep
  · rw [hoff]
    exact allBrightness_off percentBrightness_percents
  · exact allBrightness_of_pixelsWritten percentBrightness_percents hw h

end Sys2Proof.Proofs
end

section
/-! Proofs of the encoder: the brightness code and the header byte (41_encoder.md R120, R121), the data bits by position
(R124), the shift register (43_sequencer.md R173, R174), and that a push realises the abstract frame (90_conflicts.md C4). -/

namespace Sys2Proof.Proofs

open Sys2Proof.Machine Sys2Proof.Laws Sys2Proof.Claims

/-! ### The brightness code -/

theorem floor_bri_bounds {b : Rat} (h0 : 0 ≤ b) (h1 : b ≤ 1) : 0 ≤ ⌊31 * b⌋ ∧ ⌊31 * b⌋ ≤ 31 := by
  refine ⟨Int.floor_nonneg.2 (by linarith), Int.floor_le_iff.2 ?_⟩
  norm_num
  linarith

/-- On the declared range the mask changes nothing: the code is the floor itself (41_encoder.md R121). -/
theorem toNat_briCode {b : Rat} (h0 : 0 ≤ b) (h1 : b ≤ 1) : ((briCode b).toNat : Int) = ⌊31 * b⌋ := by
  obtain ⟨hlo, hhi⟩ := floor_bri_bounds h0 h1
  have hcode : briCode b = BitVec.ofInt 8 ⌊31 * b⌋ &&& briMask := rfl
  have hmask : briMask.toNat = 2 ^ 5 - 1 := rfl
  rw [hcode, BitVec.toNat_and, hmask, Nat.and_two_pow_sub_one_eq_mod, BitVec.toNat_ofInt]
  omega

theorem toNat_briCode_eq_iff {b : Rat} (h0 : 0 ≤ b) (h1 : b ≤ 1) (k : Nat) :
    (briCode b).toNat = k ↔ (k : Rat) ≤ 31 * b ∧ 31 * b < k + 1 := by
  have hcode := toNat_briCode h0 h1
  have hfloor : ⌊31 * b⌋ = (k : Int) ↔ (k : Rat) ≤ 31 * b ∧ 31 * b < k + 1 := by
    rw [Int.floor_eq_iff, Int.cast_natCast]
  rw [← hfloor]
  omega

/-- A host percent's code is an exact quotient (41_encoder.md R121). -/
theorem toNat_briCode_percent {p : Nat} (hp : p ≤ 100) : (briCode ((p : Rat) / 100)).toNat = 31 * p / 100 := by
  have hp' : (p : Rat) ≤ 100 := by exact_mod_cast hp
  have hcode := toNat_briCode (b := (p : Rat) / 100) (by positivity) (by linarith)
  have hquot : (31 : Rat) * (p / 100) = ((31 * p : Nat) : Rat) / (100 : Nat) := by
    push_cast
    ring
  rw [hquot, Rat.floor_natCast_div_natCast] at hcode
  exact_mod_cast hcode

/-- The table's percents: each gives its code, and the percent below it a smaller one (41_encoder.md R121). -/
theorem firstPercents_spec {k p : Nat} (h : firstPercents[k]? = some p) :
    p ≤ 100 ∧ 31 * p / 100 = k ∧ (p = 0 ∨ 31 * (p - 1) / 100 < k) := by
  have hk : k < 32 := (List.getElem?_eq_some_iff.1 h).1
  have htable : ∀ k < 32, ∀ p ∈ firstPercents[k]?, p ≤ 100 ∧ 31 * p / 100 = k ∧ (p = 0 ∨ 31 * (p - 1) / 100 < k) := by
    decide
  exact htable k hk p h

/-- Settles O12: the bands are those of the floor, and the table is checked against the quotient. -/
theorem brightnessCodeIsTheExactFloor : Obligations.BrightnessCodeIsTheExactFloor := by
  unfold Obligations.BrightnessCodeIsTheExactFloor
  refine ⟨fun b h0 h1 => ⟨toNat_briCode h0 h1, fun k _ => ?_, ?_, ?_⟩, fun k p hkp => ?_⟩
  · rw [toNat_briCode_eq_iff h0 h1, div_le_iff₀' (by norm_num), lt_div_iff₀' (by norm_num)]
  · rw [toNat_briCode_eq_iff h0 h1]
    constructor
    · rintro ⟨hlo, -⟩
      norm_num at hlo
      linarith
    · rintro rfl
      norm_num
  · rintro p hp rfl
    exact toNat_briCode_percent hp
  · obtain ⟨hp, hcode, hbelow⟩ := firstPercents_spec hkp
    refine ⟨(toNat_briCode_percent hp).trans hcode, fun n hn => ?_⟩
    rw [toNat_briCode_percent (hn.le.trans hp)]
    have hmono : 31 * n / 100 ≤ 31 * (p - 1) / 100 := Nat.div_le_div_right (by omega)
    omega

/-- The marker and a masked code share no bit (30_encoding.md R82). -/
theorem markerBits_or_masked (x : Byte) :
    (markerBits ||| (x &&& briMask)).extractLsb' 5 3 = 0b111#3 ∧
    (markerBits ||| (x &&& briMask)).extractLsb' 0 5 = (x &&& briMask).extractLsb' 0 5 ∧
    (markerBits ||| (x &&& briMask)).toNat = 0xE0 + (x &&& briMask).toNat := by
  revert x
  decide

/-- Settles O13: whatever the floor is, the code is masked to five bits. -/
theorem headerByteHoldsMarkerAndCode : Obligations.HeaderByteHoldsMarkerAndCode := by
  unfold Obligations.HeaderByteHoldsMarkerAndCode
  intro b
  obtain ⟨hmarker, hcode, hvalue⟩ := markerBits_or_masked (BitVec.ofInt 8 ((briScale : Rat) * b).floor)
  exact ⟨hmarker, hcode, Nat.le_of_add_right_le hvalue.ge, hvalue⟩

/-! ### The data bits -/

/-- A byte of the frame, written out, is the encoder's (41_encoder.md R120, R123). -/
theorem wireByte_eq (pix : PixelFile) (j : Fin 32) : wireByte pix j = (frameBytes pix)[j.val] := by
  rw [frameBytes_getElem pix j.val j.isLt]
  obtain h | h | h | h : j.val % 4 = 0 ∨ j.val % 4 = 1 ∨ j.val % 4 = 2 ∨ j.val % 4 = 3 := by omega
  all_goals simp only [wireByte, encPixel, h]
  all_goals rfl

@[simp] theorem dataBits_length (pix : PixelFile) : (dataBits pix).length = 256 := by
  simp [dataBits, List.length_flatMap]

/-- Settles O14: bit `k` is in byte `k div 8`, whose field and pixel `wireByte` names. -/
theorem dataBitsByPosition : Obligations.DataBitsByPosition := by
  unfold Obligations.DataBitsByPosition
  refine fun pix => ⟨dataBits_length pix, fun k hk => ?_⟩
  have hbyte : k / 8 < (frameBytes pix).toList.length := by
    rw [Vector.length_toList]
    omega
  rw [dataBits, flatMap_byteBits_getElem?, List.getElem?_eq_getElem hbyte, wireByte_eq]
  rfl

/-! ### The parts of a push -/

/-- Eight shifts send the bits of a byte, the most significant first (43_sequencer.md R173, R174). -/
theorem shiftOut_eight (x : Byte) : shiftOut 8 x = (byteBits x).flatMap bitEvents := by
  simp [shiftOut, byteBits]

/-- Settles O22: a left shift multiplies, and brings bit 7 - k to the top. -/
theorem shiftRegisterSendsTheByte : Obligations.ShiftRegisterSendsTheByte := by
  unfold Obligations.ShiftRegisterSendsTheByte
  refine fun x => ⟨fun k _ => ?_, fun k hk => ?_, BitVec.shiftLeft_eq_zero le_rfl, shiftOut_eight x⟩
  · rw [BitVec.toNat_shiftLeft, Nat.shiftLeft_eq]
  · rw [BitVec.getLsbD_shiftLeft]
    simp
    omega

theorem pulses_eq_flatten (n : Nat) : pulses n = (List.replicate n pulseEvents).flatten := by
  induction n with
  | zero => rfl
  | succ n ih => rw [pulses, ih, List.replicate_succ, List.flatten_cons]

/-- The bit-serialize part is the bit-groups of all the bits in wire order (43_sequencer.md R173). -/
theorem serializeBytes_eq_bitGroups (bytes : List Byte) :
    serializeBytes bytes = (bytes.flatMap byteBits).flatMap bitEvents := by
  rw [serializeBytes, List.flatMap_assoc]
  exact congrArg (bytes.flatMap ·) (funext shiftOut_eight)

/-- Settles O15: each part of the frame is realised by the pulses or bit-groups the push makes for it. -/
theorem pushRealisesTheAbstractFrame : Obligations.PushRealisesTheAbstractFrame := by
  unfold Obligations.PushRealisesTheAbstractFrame
  intro pix
  have hbytes : ((frameBytes pix).toList.map FrameItem.byte).flatMap realise = serializeBytes (frameBytes pix).toList := by
    rw [List.flatMap_map]
    exact congrArg ((frameBytes pix).toList.flatMap ·) (funext fun x => (shiftOut_eight x).symm)
  rw [encFrame, List.flatMap_cons, List.flatMap_append, hbytes, pushEvents, pulses_eq_flatten, pulses_eq_flatten]
  simp [realise, pulseEvents]

end Sys2Proof.Proofs
end

section
/-! Proofs of the push (43_sequencer.md section 2): its events counted and by position, its data writes, what a receiver
samples, its rising edges and the levels after it. A push is one data write, pulses, the bit-groups of the data bits, and
pulses; each fact is proved of pulses and of bit-groups, and put together once. -/

namespace Sys2Proof.Proofs

open Sys2Proof.Machine Sys2Proof.Laws Sys2Proof.Claims

/-- The bit-groups of a list of bits (43_sequencer.md R173). -/
def bitGroups (bits : List Level) : List LineEvent := bits.flatMap bitEvents

theorem pushEvents_frameBytes (pix : PixelFile) :
    pushEvents (frameBytes pix) = ⟨.dat, false⟩ :: (pulses 36 ++ (bitGroups (dataBits pix) ++ pulses 32)) := by
  rw [pushEvents, serializeBytes_eq_bitGroups]
  rfl

@[simp] theorem bitGroups_nil : bitGroups [] = [] := rfl

@[simp] theorem bitGroups_cons (b : Level) (bits : List Level) :
    bitGroups (b :: bits) = bitEvents b ++ bitGroups bits := rfl

/-! ### Counts -/

theorem countP_pulses (p : LineEvent → Bool) (n : Nat) : (pulses n).countP p = n * pulseEvents.countP p := by
  induction n with
  | zero => simp [pulses]
  | succ n ih => rw [pulses, List.countP_append, ih, Nat.succ_mul, Nat.add_comm]

theorem countP_bitGroups {p : LineEvent → Bool} {c : Nat} (h : ∀ b, (bitEvents b).countP p = c) (bits : List Level) :
    (bitGroups bits).countP p = bits.length * c := by
  induction bits with
  | nil => simp
  | cons b bits ih => rw [bitGroups_cons, List.countP_append, h, ih, List.length_cons, Nat.succ_mul, Nat.add_comm]

/-- A count over a push: one data write, 68 pulses, 256 bit-groups. -/
theorem countP_push {p : LineEvent → Bool} {c : Nat} (h : ∀ b, (bitEvents b).countP p = c) (pix : PixelFile) :
    (pushEvents (frameBytes pix)).countP p =
      (if p ⟨.dat, false⟩ then 1 else 0) + 68 * pulseEvents.countP p + 256 * c := by
  rw [pushEvents_frameBytes, List.countP_cons, List.countP_append, List.countP_append, countP_pulses, countP_pulses,
    countP_bitGroups h, dataBits_length]
  omega

theorem pushEvents_length (snap : Vector Byte 32) : (pushEvents snap).length = 905 := by
  simp [pushEvents, lockPulses, unlockPulses]

/-! ### Positions -/

/-- Chunks of one length, by position: entry `k mod n` of chunk `k div n`. -/
theorem getElem?_flatMap_of_length {α β : Type} {f : α → List β} {n : Nat} (hn : 0 < n) (h : ∀ a, (f a).length = n)
    (l : List α) (k : Nat) : (l.flatMap f)[k]? = l[k / n]?.bind fun a => (f a)[k % n]? := by
  induction l generalizing k with
  | nil => simp
  | cons a l ih =>
    rw [List.flatMap_cons]
    by_cases hk : k < n
    · rw [List.getElem?_append_left (by rwa [h]), Nat.div_eq_of_lt hk, Nat.mod_eq_of_lt hk]
      rfl
    · have hle : n ≤ k := Nat.le_of_not_lt hk
      rw [List.getElem?_append_right (by rwa [h]), h, ih, ← Nat.mod_eq_sub_mod hle, Nat.div_eq_sub_div hn hle]
      rfl

/-- Pulses alternate, high first. -/
theorem getElem?_pulses {n k : Nat} (h : k < 2 * n) : (pulses n)[k]? = some ⟨.clk, (k + 1) % 2 == 1⟩ := by
  induction n generalizing k with
  | zero => omega
  | succ n ih =>
    match k with
    | 0 => rfl
    | 1 => rfl
    | k + 2 =>
      rw [Nat.add_right_comm, Nat.add_mod_right]
      exact ih (by omega)

theorem getElem?_bitGroups (bits : List Level) (k : Nat) :
    (bitGroups bits)[k]? = bits[k / 3]?.bind fun b => (bitEvents b)[k % 3]? :=
  getElem?_flatMap_of_length (f := bitEvents) (n := 3) (by decide) (fun _ => rfl) bits k

@[simp] theorem bitGroups_length (bits : List Level) : (bitGroups bits).length = 3 * bits.length := by
  induction bits with
  | nil => rfl
  | cons b bits ih => rw [bitGroups_cons, List.length_append, ih, List.length_cons, Nat.mul_succ, Nat.add_comm]; rfl

/-- The position rule in the data phase (43_sequencer.md R179). -/
theorem eventAt_data (pix : PixelFile) {e : Nat} (hlo : 73 ≤ e) (hhi : e ≤ 840) :
    (bitGroups (dataBits pix))[e - 73]? = eventAt pix e := by
  have hbit : (e - 73) / 3 < (dataBits pix).length := by
    rw [dataBits_length]
    omega
  rw [getElem?_bitGroups, eventAt, if_neg (by omega), if_neg (by omega), if_pos hhi, List.getElem?_eq_getElem hbit]
  have hr : (e - 73) % 3 < 3 := Nat.mod_lt _ (by decide)
  generalize (e - 73) % 3 = r at hr ⊢
  interval_cases r <;> rfl

/-- The position rule of the pulses before and after the data phase. -/
theorem eventAt_pulses (pix : PixelFile) {e : Nat} (h : 1 ≤ e ∧ e ≤ 72 ∨ 841 ≤ e ∧ e ≤ 904) :
    eventAt pix e = some ⟨.clk, e % 2 == 1⟩ := by
  rw [eventAt, if_neg (by omega)]
  obtain ⟨-, hhi⟩ | ⟨hlo, hhi⟩ := h
  · rw [if_pos hhi]
  · rw [if_neg (by omega), if_neg (by omega), if_pos hhi]

theorem eventAt_after (pix : PixelFile) {e : Nat} (h : 905 ≤ e) : eventAt pix e = none := by
  rw [eventAt, if_neg (by omega), if_neg (by omega), if_neg (by omega), if_neg (by omega)]

/-- Event `e` of a push, by the part of the push it falls in (43_sequencer.md R179). -/
theorem getElem?_push (pix : PixelFile) (e : Nat) : (pushEvents (frameBytes pix))[e]? = eventAt pix e := by
  by_cases hafter : 905 ≤ e
  · rw [eventAt_after pix hafter, List.getElem?_eq_none (by rwa [pushEvents_length])]
  rw [pushEvents_frameBytes]
  rcases e with _ | e
  · rfl
  rw [List.getElem?_cons_succ]
  obtain h | ⟨hlo, hhi⟩ | h : e < 72 ∨ (72 ≤ e ∧ e < 840) ∨ 840 ≤ e := by omega
  · rw [List.getElem?_append_left (by simpa using h), getElem?_pulses h, eventAt_pulses pix (by omega)]
  · rw [List.getElem?_append_right (by simpa using hlo), pulses_length,
      List.getElem?_append_left (by simp; omega), ← eventAt_data pix (by omega) (by omega)]
    rfl
  · have hparity : (e - 2 * 36 - 3 * 256 + 1) % 2 = (e + 1) % 2 := by omega
    rw [List.getElem?_append_right (by simp; omega), List.getElem?_append_right (by simp; omega), pulses_length,
      bitGroups_length, dataBits_length, getElem?_pulses (by omega), hparity, eventAt_pulses pix (by omega)]

/-- Settles O16: each count is one of the parts' counts, each position falls in one of the parts. -/
theorem pushEventsByCountAndPosition : Obligations.PushEventsByCountAndPosition := by
  unfold Obligations.PushEventsByCountAndPosition
  intro pix
  refine ⟨pushEvents_length _, ?_, ?_, ?_, getElem?_push pix⟩
  · rw [countP_push (c := 1) (fun _ => rfl)]
    rfl
  · rw [List.count, countP_push (c := 1) (by decide)]
    rfl
  · rw [List.count, countP_push (c := 1) (by decide)]
    rfl

/-- The events of the data phase by their place in the bit-group: data, clock high, clock low. -/
theorem eventAt_data_cases (pix : PixelFile) {e : Nat} (hlo : 73 ≤ e) (hhi : e ≤ 840) :
    (e % 3 = 1 ∧ ∃ b, eventAt pix e = some ⟨.dat, b⟩) ∨ (e % 3 = 2 ∧ eventAt pix e = some ⟨.clk, true⟩) ∨
      (e % 3 = 0 ∧ eventAt pix e = some ⟨.clk, false⟩) := by
  have hbit : (e - 73) / 3 < (dataBits pix).length := by
    rw [dataBits_length]
    omega
  have hmod : (e - 73) % 3 = (e + 2) % 3 := by omega
  rw [← eventAt_data pix hlo hhi, getElem?_bitGroups, List.getElem?_eq_getElem hbit, hmod]
  obtain h | h | h : e % 3 = 1 ∨ e % 3 = 2 ∨ e % 3 = 0 := by omega
  · exact .inl ⟨h, _, by rw [Nat.add_mod, h]; rfl⟩
  · exact .inr (.inl ⟨h, by rw [Nat.add_mod, h]; rfl⟩)
  · exact .inr (.inr ⟨h, by rw [Nat.add_mod, h]; rfl⟩)

/-! ### Data writes -/

/-- Pulses write no data (43_sequencer.md R172, R176). -/
theorem dataWrites_pulses (n : Nat) : dataWrites (pulses n) = [] := by
  induction n with
  | zero => rfl
  | succ n ih => exact ih

/-- Each bit-group writes its bit. -/
theorem dataWrites_bitGroups (bits : List Level) : dataWrites (bitGroups bits) = bits := by
  induction bits with
  | nil => rfl
  | cons b bits ih => exact congrArg (b :: ·) ih

theorem dataWrites_append (as bs : List LineEvent) : dataWrites (as ++ bs) = dataWrites as ++ dataWrites bs :=
  List.filterMap_append

/-- Settles O17: only the first write and the bit-groups write data. -/
theorem pushDataWritesAreTheDataBits : Obligations.PushDataWritesAreTheDataBits := by
  unfold Obligations.PushDataWritesAreTheDataBits
  intro pix
  have hcons : ∀ es, dataWrites (⟨.dat, false⟩ :: es) = false :: dataWrites es := fun _ => rfl
  rw [pushEvents_frameBytes, hcons, dataWrites_append, dataWrites_append, dataWrites_pulses, dataWrites_pulses,
    dataWrites_bitGroups, List.append_nil, List.nil_append]

/-! ### What a receiver samples -/

theorem sampled_append (as bs : List LineEvent) (d : Level) :
    sampled d (as ++ bs) = sampled d as ++ sampled (levelAfter .dat as d) bs := by
  induction as generalizing d with
  | nil => rfl
  | cons e as ih =>
    obtain ⟨_ | _, _ | _⟩ := e <;> simp [sampled, ih]

/-- Each pulse samples the level that stands. -/
theorem sampled_pulses (n : Nat) (d : Level) : sampled d (pulses n) = List.replicate n d := by
  induction n with
  | zero => rfl
  | succ n ih => exact congrArg (d :: ·) ih

/-- Each bit-group samples its own bit. -/
theorem sampled_bitGroups (bits : List Level) (d : Level) : sampled d (bitGroups bits) = bits := by
  induction bits generalizing d with
  | nil => rfl
  | cons b bits ih => exact congrArg (b :: ·) (ih b)

/-- The last data bit stands on the data line after a push (43_sequencer.md R176). -/
theorem levelAfter_dat_frame (pix : PixelFile) (d : Level) :
    levelAfter .dat (pushEvents (frameBytes pix)) d = pix[7].red.getLsbD 0 := by
  rw [levelAfter_dat_push, frameBytes_last]

/-- Settles O18: the lock pulses sample the 0 before them, the unlock pulses the last data bit. -/
theorem sampledBitstreamOfAPush : Obligations.SampledBitstreamOfAPush := by
  unfold Obligations.SampledBitstreamOfAPush
  intro pix d
  have hlast := levelAfter_dat_frame pix d
  rw [pushEvents_frameBytes] at hlast ⊢
  simp only [levelAfter_cons, levelAfter_append, levelAfter_dat_pulses, if_true] at hlast
  have hcons : ∀ es, sampled d (⟨.dat, false⟩ :: es) = sampled false es := fun _ => rfl
  rw [hcons, sampled_append, sampled_append, sampled_pulses, sampled_bitGroups, sampled_pulses, levelAfter_dat_pulses,
    hlast, List.append_assoc]

/-! ### Rising edges -/

theorem risingEdges_append (as bs : List LineEvent) (c : Level) :
    risingEdges c (as ++ bs) = risingEdges c as + risingEdges (levelAfter .clk as c) bs := by
  induction as generalizing c with
  | nil => simp [risingEdges]
  | cons e as ih =>
    obtain ⟨_ | _, _ | _⟩ := e <;> simp [risingEdges, ih, Nat.add_assoc]

/-- From a low clock each pulse is one edge. -/
theorem risingEdges_pulses (n : Nat) : risingEdges false (pulses n) = n := by
  induction n with
  | zero => rfl
  | succ n ih => exact (congrArg (1 + ·) ih).trans (Nat.add_comm 1 n)

/-- From a high clock the first clock write is no edge. -/
theorem risingEdges_pulses_of_high (n : Nat) : risingEdges true (pulses (n + 1)) = n :=
  (Nat.zero_add _).trans (risingEdges_pulses n)

theorem risingEdges_bitGroups (bits : List Level) : risingEdges false (bitGroups bits) = bits.length := by
  induction bits with
  | nil => rfl
  | cons b bits ih => exact (congrArg (1 + ·) ih).trans (Nat.add_comm 1 bits.length)

theorem levelAfter_clk_bitGroups (bits : List Level) : levelAfter .clk (bitGroups bits) false = false := by
  induction bits with
  | nil => rfl
  | cons b bits ih => exact ih

/-- The lock pulses leave the clock low, so only they depend on the level before. -/
theorem risingEdges_push (pix : PixelFile) (c : Level) :
    risingEdges c (pushEvents (frameBytes pix)) = risingEdges c (pulses 36) + 288 := by
  have hcons : ∀ es, risingEdges c (⟨.dat, false⟩ :: es) = risingEdges c es := fun _ => rfl
  have hlow : levelAfter .clk (pulses 36) c = false := levelAfter_clk_pulses 36 c
  rw [pushEvents_frameBytes, hcons, risingEdges_append, risingEdges_append, hlow, risingEdges_bitGroups,
    levelAfter_clk_bitGroups, risingEdges_pulses, dataBits_length]

/-- Settles O19: from a low clock the lock phase has 36 edges, from a high one 35. -/
theorem risingEdgesOfAPush : Obligations.RisingEdgesOfAPush := by
  unfold Obligations.RisingEdgesOfAPush
  intro pix c
  rw [risingEdges_push, risingEdges_push, risingEdges_pulses, risingEdges_pulses_of_high 35]
  exact ⟨rfl, rfl, levelAfter_clk_push _ c⟩

/-! ### Neighbouring events -/

/-- The positions of the data writes: the first, and the first of each bit-group. -/
abbrev DatAt (e : Nat) : Prop := e = 0 ∨ (73 ≤ e ∧ e ≤ 840) ∧ e % 3 = 1

/-- The positions of the clock writes of 1. -/
abbrev ClkHighAt (e : Nat) : Prop :=
  (1 ≤ e ∧ e ≤ 72 ∨ 841 ≤ e ∧ e ≤ 904) ∧ e % 2 = 1 ∨ (73 ≤ e ∧ e ≤ 840) ∧ e % 3 = 2

/-- The positions of the clock writes of 0. -/
abbrev ClkLowAt (e : Nat) : Prop :=
  (1 ≤ e ∧ e ≤ 72 ∨ 841 ≤ e ∧ e ≤ 904) ∧ e % 2 = 0 ∨ (73 ≤ e ∧ e ≤ 840) ∧ e % 3 = 0

/-- What stands at a position is known from the position, but for the level of a data write. -/
theorem eventAt_cases (pix : PixelFile) (e : Nat) :
    (DatAt e ∧ ∃ b, eventAt pix e = some ⟨.dat, b⟩) ∨ (ClkHighAt e ∧ eventAt pix e = some ⟨.clk, true⟩) ∨
      (ClkLowAt e ∧ eventAt pix e = some ⟨.clk, false⟩) ∨ (905 ≤ e ∧ eventAt pix e = none) := by
  obtain rfl | hpulse | ⟨hlo, hhi⟩ | hafter :
      e = 0 ∨ (1 ≤ e ∧ e ≤ 72 ∨ 841 ≤ e ∧ e ≤ 904) ∨ (73 ≤ e ∧ e ≤ 840) ∨ 905 ≤ e := by omega
  · exact .inl ⟨.inl rfl, false, rfl⟩
  · rw [eventAt_pulses pix hpulse]
    obtain h | h := Nat.mod_two_eq_zero_or_one e
    · exact .inr (.inr (.inl ⟨.inl ⟨hpulse, h⟩, by rw [h]; rfl⟩))
    · exact .inr (.inl ⟨.inl ⟨hpulse, h⟩, by rw [h]; rfl⟩)
  · obtain ⟨h, hb⟩ | ⟨h, hev⟩ | ⟨h, hev⟩ := eventAt_data_cases pix hlo hhi
    · exact .inl ⟨.inr ⟨⟨hlo, hhi⟩, h⟩, hb⟩
    · exact .inr (.inl ⟨.inr ⟨⟨hlo, hhi⟩, h⟩, hev⟩)
    · exact .inr (.inr (.inl ⟨.inr ⟨⟨hlo, hhi⟩, h⟩, hev⟩))
  · exact .inr (.inr (.inr ⟨hafter, eventAt_after pix hafter⟩))

theorem clkHighAt_of_eventAt {pix : PixelFile} {e : Nat} (h : eventAt pix e = some ⟨.clk, true⟩) : ClkHighAt e := by
  obtain ⟨-, b, hev⟩ | ⟨hat, -⟩ | ⟨-, hev⟩ | ⟨-, hev⟩ := eventAt_cases pix e
  · simp [h] at hev
  · exact hat
  · simp [h] at hev
  · simp [h] at hev

theorem datAt_of_eventAt {pix : PixelFile} {e : Nat} {v : Level} (h : eventAt pix e = some ⟨.dat, v⟩) : DatAt e := by
  obtain ⟨hat, -⟩ | ⟨-, hev⟩ | ⟨-, hev⟩ | ⟨-, hev⟩ := eventAt_cases pix e
  · exact hat
  · simp [h] at hev
  · simp [h] at hev
  · simp [h] at hev

theorem eventAt_of_clkHighAt (pix : PixelFile) {e : Nat} (h : ClkHighAt e) : eventAt pix e = some ⟨.clk, true⟩ := by
  obtain ⟨hat, -⟩ | ⟨-, hev⟩ | ⟨hat, -⟩ | ⟨hat, -⟩ := eventAt_cases pix e
  · omega
  · exact hev
  · omega
  · omega

theorem eventAt_of_clkLowAt (pix : PixelFile) {e : Nat} (h : ClkLowAt e) : eventAt pix e = some ⟨.clk, false⟩ := by
  obtain ⟨hat, -⟩ | ⟨hat, -⟩ | ⟨-, hev⟩ | ⟨hat, -⟩ := eventAt_cases pix e
  · omega
  · omega
  · exact hev
  · omega

/-- Settles O20: by the three sets of positions, which follow one another as the statement says. -/
theorem dataStableWhileClockHigh : Obligations.DataStableWhileClockHigh := by
  unfold Obligations.DataStableWhileClockHigh
  intro pix n
  simp only [getElem?_push]
  refine ⟨fun h => ?_, fun v h => ⟨?_, fun hn => ?_⟩⟩
  · have hat := clkHighAt_of_eventAt h
    exact eventAt_of_clkLowAt pix (by omega)
  · have hat := datAt_of_eventAt h
    exact eventAt_of_clkHighAt pix (by omega)
  · have hat := datAt_of_eventAt h
    exact eventAt_of_clkLowAt pix (by omega)

/-! ### Levels -/

/-- Settles O21: the clock of the last pulse is low, the data line is untouched since the last bit. -/
theorem lineLevelsAfterAPush : Obligations.LineLevelsAfterAPush := by
  unfold Obligations.LineLevelsAfterAPush
  refine fun pix s => ⟨levelAfter_clk_push _ s.clk, levelAfter_dat_frame pix s.dat, ?_⟩
  rintro rfl
  exact levelAfter_dat_frame PixelFile.off s.dat

end Sys2Proof.Proofs
end

section
/-! Proofs of the sequencer, one line write a step (43_sequencer.md section 1). A running push makes its next write in each
step, and what it will have become when it has made them all, `drained`, does not change on the way; so a run of as many steps
as writes are left ends there. For a push just started that is what the push as one update leaves. -/

namespace Sys2Proof.Proofs

open Sys2Proof.Machine Sys2Proof.Laws Sys2Proof.Claims Sys2Proof.Safety

/-! ### One step of a running push -/

/-- A push runs, its sequencer in a row of its table, and the next turn does not stop the machine. -/
structure Running (s : State) : Prop where
  busy : s.busy = true
  notIdle : s.phase ≠ .idle
  inRow : SequencerInRow s
  polite : waitsPolitely s.turns = true

theorem running_of_inv {s : State} (h : Inv s) (hb : s.busy = true) (hp : waitsPolitely s.turns = true) : Running s :=
  ⟨hb, h.busyIffPushing.1 hb, h.sequencerInRow, hp⟩

theorem running_startPush (job : Job) {s : State} (hb : s.busy = true) (hp : waitsPolitely s.turns = true) :
    Running (startPush job s) :=
  ⟨hb, nofun, ⟨Nat.zero_lt_succ 35, le_refl lockPulses, fun _ => rfl⟩, hp⟩

/-- What follows a micro-step: the end of the push at IDLE, else nothing. -/
def afterMicroStep (t : State) : State := if t.phase = .idle then finish t else t

/-- A step of a running push is a micro-step of its table and what follows it. -/
theorem step_of_running {s : State} (h : Running s) : ∃ t e, MicroStep s t e ∧ step s = .next (afterMicroStep t) := by
  obtain ⟨t, e, hseq, hmicro⟩ := seqStep_of_inRow s h.notIdle h.inRow
  refine ⟨t, e, hmicro, ?_⟩
  rw [step_of_busy s h.busy h.polite, advancePush, hseq, afterMicroStep]
  dsimp only
  split <;> rfl

theorem running_of_microStep {s t : State} {e : LineEvent} (h : Running s) (hmicro : MicroStep s t e)
    (hrun : t.phase ≠ .idle) : Running t :=
  ⟨hmicro.frame.busy.trans h.busy, hrun, hmicro.inRow, hmicro.frame.turns ▸ h.polite⟩

section

variable (t : State)

theorem afterMicroStep_of_idle (h : t.phase = .idle) : afterMicroStep t = finish t := if_pos h
theorem afterMicroStep_of_not_idle (h : t.phase ≠ .idle) : afterMicroStep t = t := if_neg h

@[simp] theorem afterMicroStep_pix : (afterMicroStep t).pix = t.pix := by unfold afterMicroStep; split <;> simp
@[simp] theorem afterMicroStep_phase : (afterMicroStep t).phase = t.phase := by unfold afterMicroStep; split <;> simp
@[simp] theorem afterMicroStep_snap : (afterMicroStep t).snap = t.snap := by unfold afterMicroStep; split <;> simp
@[simp] theorem afterMicroStep_dat : (afterMicroStep t).dat = t.dat := by unfold afterMicroStep; split <;> simp
@[simp] theorem afterMicroStep_clk : (afterMicroStep t).clk = t.clk := by unfold afterMicroStep; split <;> simp
@[simp] theorem afterMicroStep_trace : (afterMicroStep t).trace = t.trace := by unfold afterMicroStep; split <;> simp
@[simp] theorem afterMicroStep_callers : (afterMicroStep t).callers = t.callers := by
  unfold afterMicroStep; split <;> simp
@[simp] theorem afterMicroStep_turns : (afterMicroStep t).turns = t.turns := by unfold afterMicroStep; split <;> simp
@[simp] theorem afterMicroStep_grain : (afterMicroStep t).grain = t.grain := by unfold afterMicroStep; split <;> simp

end

theorem pendingWrites_afterMicroStep (t : State) : pendingWrites (afterMicroStep t) = pendingWrites t := by
  by_cases h : t.phase = .idle
  · rw [pendingWrites_of_idle (by simpa using h), pendingWrites_of_idle h]
  · rw [afterMicroStep_of_not_idle t h]

/-- Settles O23: the micro-step makes the first of the writes to come, and `BUSY` falls exactly if it leads to IDLE. -/
theorem busyStepMakesTheNextLineWrite : Obligations.BusyStepMakesTheNextLineWrite := by
  unfold Obligations.BusyStepMakesTheNextLineWrite
  intro s h hb hp
  obtain ⟨t, e, hmicro, hstep⟩ := step_of_running (running_of_inv h hb hp)
  have hf := hmicro.frame
  have htb : t.busy = true := hf.busy.trans hb
  have hjob : t.job ≠ none := hf.job ▸ h.busyIffJob.1 hb
  refine ⟨afterMicroStep t, e, pendingWrites t, hstep, hmicro.pending, pendingWrites_afterMicroStep t, ?_⟩
  simp only [afterMicroStep_trace, afterMicroStep_dat, afterMicroStep_clk, afterMicroStep_pix, afterMicroStep_snap,
    afterMicroStep_callers, afterMicroStep_turns, afterMicroStep_grain]
  refine ⟨hmicro.trace, hmicro.dat, hmicro.clk, ?_, hf.pix, hf.snap, hf.callers, hf.turns, hf.grain, ?_⟩
  · rw [← hmicro.idleIff]
    by_cases hidle : t.phase = .idle
    · simp [afterMicroStep_of_idle t hidle, finish_of_job t hjob, hidle]
    · simp [afterMicroStep_of_not_idle t hidle, htb, hidle]
  · intro hbusy
    by_cases hidle : t.phase = .idle
    · simp [afterMicroStep_of_idle t hidle, finish_of_job t hjob] at hbusy
    · rw [afterMicroStep_of_not_idle t hidle]
      exact ⟨hf.life, hf.status, hf.ownDat, hf.ownClk, hf.sinkCalls, hf.job⟩

/-! ### A run to the end of a push -/

/-- The state when all the writes still to come have been made, before the end of the push: the hidden registers as the last
row of 43_sequencer.md R177 leaves them. -/
def drained (s : State) : State :=
  { lineWrites (pendingWrites s) s with
    phase := .idle
    cnt := 0
    pixi := 7
    byti := 3
    biti := 0
    shr := 0#8
    sub := .clkl }

/-- From the start row that is the push as one update. -/
theorem drained_startPush (job : Job) (s : State) : drained (startPush job s) = runPush (startPush job s) := rfl

theorem drained_microStep {s t : State} {e : LineEvent} (hmicro : MicroStep s t e) : drained t = drained s := by
  have hf := hmicro.frame
  simp [drained, lineWrites, hmicro.pending, hmicro.dat, hmicro.clk, hmicro.trace, hf.pix, hf.life, hf.status, hf.busy,
    hf.snap, hf.ownDat, hf.ownClk, hf.job, hf.sinkCalls, hf.callers, hf.turns, hf.grain]

theorem drained_of_end {s t : State} {e : LineEvent} (hmicro : MicroStep s t e) (hidle : t.phase = .idle) :
    drained t = t := by
  obtain ⟨-, hcnt, hpixi, hbyti, hbiti, hshr, hsub⟩ := hmicro.atEnd hidle
  rw [drained, pendingWrites_of_idle hidle, lineWrites_nil]
  clear hmicro
  cases t
  simp_all only

/-- A running push runs to its end in as many steps as it has writes to make. -/
theorem run_of_running {s : State} (h : Running s) :
    core.run (pendingWrites s).length s = .next (finish (drained s)) := by
  generalize hn : pendingWrites s = writes
  induction writes generalizing s with
  | nil =>
    obtain ⟨t, e, hmicro, -⟩ := step_of_running h
    rw [hmicro.pending] at hn
    cases hn
  | cons e writes ih =>
    obtain ⟨t, e', hmicro, hstep⟩ := step_of_running h
    rw [hmicro.pending] at hn
    obtain ⟨-, hwrites⟩ := List.cons.inj hn
    rw [List.length_cons, run_succ_of_next _ s _ hstep, ← drained_microStep hmicro]
    by_cases hidle : t.phase = .idle
    · rw [← hwrites, hmicro.idleIff.1 hidle, afterMicroStep_of_idle t hidle, drained_of_end hmicro hidle]
      rfl
    · rw [afterMicroStep_of_not_idle t hidle]
      exact ih (running_of_microStep h hmicro hidle) hwrites

theorem laterBits_length (n : Nat) (x : Byte) (s : State) :
    (laterBits n x s).length = 3 * n + (24 * (32 - (byteIndex s + 1)) + 64) := by
  simp [laterBits, unlockPulses]

/-- No more than the 905 writes of a whole push are ever to come. -/
theorem pendingWrites_length_le {s : State} (h : SequencerInRow s) : (pendingWrites s).length ≤ 905 := by
  cases hphase : s.phase with
  | idle => simp [pendingWrites_of_idle hphase]
  | lock =>
    simp only [SequencerInRow, hphase, lockPulses] at h
    cases hsub : s.sub <;> simp [pendingWrites, hphase, hsub, unlockPulses] <;> omega
  | data => cases hsub : s.sub <;> simp [pendingWrites, hphase, hsub, laterBits_length] <;> omega
  | unlock =>
    simp only [SequencerInRow, hphase, unlockPulses] at h
    cases hsub : s.sub <;> simp [pendingWrites, hphase, hsub] <;> omega

/-- Settles O26: the run ends in `finish (drained s)`, which has made the writes to come and nothing to the pixels. -/
theorem runningPushRunsToItsEnd : Obligations.RunningPushRunsToItsEnd := by
  unfold Obligations.RunningPushRunsToItsEnd
  intro s h hb hp
  have hjob : (drained s).job ≠ none := h.busyIffJob.1 hb
  refine ⟨pendingWrites_length_le h.sequencerInRow, _, run_of_running (running_of_inv h hb hp),
    (finish_of_job _ hjob).1, ?_, ?_⟩
  · rw [finish_trace]
    rfl
  · rw [finish_pix]
    rfl

/-- A command or construction just started is completed by line writes, within 905 steps, as it is in one. -/
theorem run_complete {b : State} (h : AtStart b) (hp : waitsPolitely b.turns = true) :
    ∃ n ≤ 905, core.run n b = .next (complete b) := by
  obtain hb | ⟨job, s, hb, rfl⟩ := h
  · exact ⟨0, by omega, by rw [complete_of_idle b hb]; rfl⟩
  · have hrunning := running_startPush job hb hp
    refine ⟨_, pendingWrites_length_le hrunning.inRow, ?_⟩
    rw [run_of_running hrunning, drained_startPush, complete_started job s hb]

/-- Settles O24: the first step starts the command, and the run completes it as `exec` does. -/
theorem lineWriteStepsEqualTheCommand : Obligations.LineWriteStepsEqualTheCommand := by
  unfold Obligations.LineWriteStepsEqualTheCommand
  intro s k w ws rest hb hg ht hp hc
  have hidle : (afterWord k ws rest s).busy = false := hb
  have hstep : step s = .next (beginInstr (decode w) (afterWord k ws rest s)) := by
    rw [step_of_caller s k w ws rest hb ht hc, acceptWord]
    simp only [afterWord, hg]
  obtain ⟨n, hn, hrun⟩ := run_complete (atStart_beginInstr (decode w) hidle)
    (by rw [(sameOutside_beginInstr (decode w) hidle).turns]; exact hp)
  exact ⟨n + 1, _, by omega, (run_succ_of_next n s _ hstep).trans hrun, exec_of_idle (decode w) _ hidle⟩

theorem takeConstruct_command (p : Platform) {s : State} (hl : s.life ≠ .ready) (hg : s.grain = .command) :
    takeConstruct p s = .next (runConstruct p s) := by
  unfold takeConstruct
  cases hlife : s.life with
  | ready => exact absurd hlife hl
  | _ => simp only [hg]

theorem takeConstruct_lineWrite (p : Platform) {s : State} (hl : s.life ≠ .ready) (hg : s.grain = .lineWrite) :
    takeConstruct p s = .next (beginConstruct p s) := by
  unfold takeConstruct
  cases hlife : s.life with
  | ready => exact absurd hlife hl
  | _ => simp only [hg]

/-- Construction does not read the grain. -/
theorem runConstruct_withGrain (p : Platform) (s : State) (g : Grain) :
    runConstruct p { s with grain := g } = { runConstruct p s with grain := g } := by
  obtain ⟨_ | _, _ | _, d, c⟩ := p <;> rfl

/-- Settles O25: the first step starts construction, and the run completes it as the one step does, the grain apart. -/
theorem lineWriteStepsEqualConstruction : Obligations.LineWriteStepsEqualConstruction := by
  unfold Obligations.LineWriteStepsEqualConstruction
  intro s p rest hb hl hg ht hp
  have hstep : step s = .next (beginConstruct p { s with turns := rest }) :=
    (step_construct_of_idle ht hb).trans (takeConstruct_lineWrite p hl hg)
  obtain ⟨n, hn, hrun⟩ := run_complete (atStart_beginConstruct p { s with turns := rest })
    (by rw [beginConstruct_turns]; exact hp)
  refine ⟨n + 1, _, by omega, (run_succ_of_next n s _ hstep).trans hrun, ?_⟩
  have hone := (step_construct_of_idle (s := { s with grain := .command }) ht hb).trans (takeConstruct_command p hl rfl)
  exact hone.trans (congrArg _ (runConstruct_withGrain p { s with turns := rest } .command))

/-! ### The turns while a push runs -/

section

variable (s : State) (ts : List Turn)

theorem lockPulseEnd_withTurns : lockPulseEnd { s with turns := ts } = { lockPulseEnd s with turns := ts } := by
  unfold lockPulseEnd
  dsimp only
  split <;> rfl

theorem bitGroupEnd_withTurns : bitGroupEnd { s with turns := ts } = { bitGroupEnd s with turns := ts } := by
  unfold bitGroupEnd
  dsimp only
  split
  · rfl
  · split <;> rfl

theorem unlockPulseEnd_withTurns : unlockPulseEnd { s with turns := ts } = { unlockPulseEnd s with turns := ts } := by
  unfold unlockPulseEnd
  dsimp only
  split <;> rfl

theorem finish_withTurns : finish { s with turns := ts } = { finish s with turns := ts } := by
  unfold finish
  dsimp only
  split <;> rfl

/-- The table of 43_sequencer.md R177 does not read the turns. -/
theorem seqStep_withTurns : seqStep { s with turns := ts } = (seqStep s).map fun t => { t with turns := ts } := by
  unfold seqStep
  dsimp only
  split
  case h_3 => exact congrArg some (lockPulseEnd_withTurns s ts)
  case h_6 => exact congrArg some (bitGroupEnd_withTurns s ts)
  case h_8 => exact congrArg some (unlockPulseEnd_withTurns s ts)
  all_goals rfl

end

theorem advancePush_withTurns {s t : State} (ts : List Turn) (h : advancePush s = .next t) :
    advancePush { s with turns := ts } = .next { t with turns := ts } := by
  obtain ⟨s1, hseq, hcase⟩ := advancePush_cases h
  rw [advancePush, seqStep_withTurns, hseq]
  obtain ⟨hrun, rfl⟩ | ⟨hidle, rfl⟩ := hcase
  · exact if_neg hrun
  · exact (if_pos hidle).trans (congrArg _ (finish_withTurns s1 ts))

/-- Settles O40: a busy step with a caller's turn next advances the push, which reads no turn and takes no word. -/
theorem busyBlockAcceptsNoWord : Obligations.BusyBlockAcceptsNoWord := by
  unfold Obligations.BusyBlockAcceptsNoWord
  refine ⟨fun s k rest hb ht => ?_, exec_of_busy⟩
  have hstep : step s = advancePush s := step_of_busy s hb (by rw [ht]; rfl)
  refine ⟨fun t hanswer => ?_, fun t hanswer => ?_⟩
  · obtain ⟨hpix, hcallers, hturns, -⟩ := advancePush_frame (hstep.symm.trans hanswer)
    exact ⟨hcallers, hturns, hpix⟩
  · have hquiet : step { s with turns := [] } = advancePush { s with turns := [] } := step_of_busy _ hb rfl
    exact hstep.trans (advancePush_withTurns (s := { s with turns := [] }) s.turns (hquiet.symm.trans hanswer))

end Sys2Proof.Proofs
end

section
/-! Proofs of construction and reset (70_reset_and_hazards.md R230, 10_state.md section 6): what construction leaves, granted
or refused, that from power-on it leaves the reset state, and that both are sound. -/

namespace Sys2Proof.Proofs

open Sys2Proof.Machine Sys2Proof.Laws Sys2Proof.Claims Sys2Proof.Safety

/-! ### Construction as one step -/

theorem runConstruct_of_granted {p : Platform} (s : State) (hdat : p.grantDat = true) (hclk : p.grantClk = true) :
    runConstruct p s = finish (runPush (startPush .construct (takeLines p (clearForConstruct s)))) := by
  rw [runConstruct, beginConstruct_of_granted s hdat hclk]
  exact complete_started .construct _ rfl

theorem runConstruct_of_refused {p : Platform} (s : State) (h : p.grantDat = false ∨ p.grantClk = false) :
    runConstruct p s = failConstruct (refusalCalls p) (clearForConstruct s) := by
  rw [runConstruct, beginConstruct_of_refused s h]
  exact complete_of_idle _ rfl

/-- Granted or refused, construction leaves the block idle. -/
theorem runConstruct_idle (p : Platform) (s : State) :
    (runConstruct p s).busy = false ∧ (runConstruct p s).phase = .idle ∧ (runConstruct p s).job = none := by
  obtain h | h := beginConstruct_cases p s <;> rw [runConstruct, h]
  · rw [complete_started .construct _ rfl]
    exact ⟨rfl, rfl, rfl⟩
  · exact ⟨rfl, rfl, rfl⟩

/-- A CONSTRUCT turn of an idle block outside READY is construction, in one step at the grain `command`. -/
theorem step_construct_command {s : State} {p : Platform} {rest : List Turn} (ht : s.turns = .construct p :: rest)
    (hb : s.busy = false) (hl : s.life ≠ .ready) (hg : s.grain = .command) :
    step s = .next (runConstruct p { s with turns := rest }) :=
  (step_construct_of_idle ht hb).trans (takeConstruct_command p hl hg)

/-- The last data bit of the all-off push is 0. -/
theorem levelAfter_dat_off (d : Level) : levelAfter .dat (pushEvents (frameBytes PixelFile.off)) d = false :=
  levelAfter_dat_frame PixelFile.off d

/-- Settles O41: granted, the end of the all-off push; refused, the cleared registers and the ownership the invariant
gives an idle block outside READY, none. -/
theorem constructResult : Obligations.ConstructResult := by
  unfold Obligations.ConstructResult
  constructor
  · intro s p rest h hb hl hg ht
    have hidle := soundIdle_of_inv h hb
    obtain ⟨hbusy, hphase, hjob⟩ := runConstruct_idle p { s with turns := rest }
    refine ⟨_, step_construct_command ht hb hl hg, ?_, hbusy, hphase, hjob, ?_, ?_, ?_, fun hdat hclk => ?_,
      fun hrefused => ?_⟩
    · rw [runConstruct, complete_pix, beginConstruct_pix]
      rfl
    · rw [runConstruct, complete_callers, beginConstruct_callers]
    · rw [runConstruct, complete_turns, beginConstruct_turns]
    · rw [runConstruct, complete_grain, beginConstruct_grain]
    · rw [runConstruct_of_granted _ hdat hclk]
      exact ⟨rfl, rfl, rfl, rfl, rfl, levelAfter_dat_off p.initDat, levelAfter_clk_push _ p.initClk, rfl⟩
    · rw [runConstruct_of_refused _ hrefused]
      have hdat : s.ownDat = false := by simpa [hl] using hidle.ownDatIff
      have hclk : s.ownClk = false := by simpa [hl] using hidle.ownClkIff
      exact ⟨rfl, rfl, hdat, hclk, rfl, rfl, rfl, rfl, rfl, rfl, rfl, rfl, rfl, rfl, rfl⟩
  · intro s p rest hb hl hg ht hdat hclk
    have hstep := (step_construct_of_idle ht hb).trans (takeConstruct_lineWrite p hl hg)
    rw [beginConstruct_of_granted _ hdat hclk] at hstep
    exact ⟨_, hstep, rfl, rfl, rfl, rfl, rfl, rfl, rfl, rfl, rfl, rfl, rfl⟩

/-! ### A line write by another agent outside READY -/

theorem takeForeignWrite_of_not_owned (l : Line) {s : State} (hdat : s.ownDat = false) (hclk : s.ownClk = false) :
    takeForeignWrite l s = .next s := by
  cases l with
  | dat => simp [takeForeignWrite, hdat]
  | clk => simp [takeForeignWrite, hclk]

/-- Settles O44: a busy block refuses it, and an idle one outside READY owns no line. -/
theorem foreignLineWriteOutsideReady : Obligations.ForeignLineWriteOutsideReady := by
  unfold Obligations.ForeignLineWriteOutsideReady
  intro s l v rest h ht hl
  refine ⟨step_foreignWrite_of_busy ht, fun hb => ?_⟩
  have hidle := soundIdle_of_inv h hb
  have hdat : s.ownDat = false := by simpa [hl] using hidle.ownDatIff
  have hclk : s.ownClk = false := by simpa [hl] using hidle.ownClkIff
  exact (step_foreignWrite_of_idle ht hb).trans (takeForeignWrite_of_not_owned l hdat hclk)

/-! ### Power-on and reset -/

/-- Settles O45: the push of construction leaves the levels of the reset state whatever the draws are. -/
theorem powerOnConstructReachesReset : Obligations.PowerOnConstructReachesReset := by
  unfold Obligations.PowerOnConstructReachesReset
  refine ⟨fun hosts d c => ?_, rfl, rfl⟩
  have hstep := step_construct_command (s := { State.powerOnFor hosts with turns := [.construct ⟨true, true, d, c⟩] })
    rfl rfl nofun rfl
  rw [hstep, runConstruct_of_granted _ rfl rfl]
  simp only [finish, runPush, lineWrites, startPush, takeLines, clearForConstruct, levelAfter_dat_off,
    levelAfter_clk_push]
  rfl

theorem off_getElem (j : Nat) (h : j < 8) : PixelFile.off[j] = ⟨0, 0#8, 0#8, 0#8⟩ :=
  Vector.getElem_replicate h

/-- Settles O46: the table's values by the definition of the reset state, its trace by the positions of a push. -/
theorem resetValues : Obligations.ResetValues := by
  unfold Obligations.ResetValues
  refine ⟨rfl, rfl, fun hosts => ⟨off_getElem, rfl, rfl, rfl, rfl, rfl, rfl, rfl, rfl, rfl, pushEvents_length _,
    getElem?_push PixelFile.off, List.length_replicate, fun p hp => ?_⟩⟩
  have hrefused : p.grantDat = false ∨ p.grantClk = false := Bool.and_eq_false_iff.1 hp
  refine ⟨_, step_construct_command rfl rfl nofun rfl, ?_⟩
  rw [runConstruct_of_refused _ hrefused]
  exact ⟨rfl, rfl, rfl, rfl, rfl, List.length_replicate, off_getElem⟩

theorem soundIdle_resetFor {hosts : Nat} (h : 1 ≤ hosts) : SoundIdle (State.resetFor hosts) where
  pixelsLegal := pixelsLegal_off
  cntInRange := Nat.zero_le _
  notBusy := rfl
  idle := rfl
  noJob := rfl
  ownDatIff := by simp [State.resetFor]
  ownClkIff := by simp [State.resetFor]
  clockLow := fun _ => rfl
  hostsAtLeastOne := by simpa using h

theorem soundIdle_powerOnFor {hosts : Nat} (h : 1 ≤ hosts) : SoundIdle (State.powerOnFor hosts) where
  pixelsLegal := pixelsLegal_off
  cntInRange := Nat.zero_le _
  notBusy := rfl
  idle := rfl
  noJob := rfl
  ownDatIff := by simp [State.powerOnFor]
  ownClkIff := by simp [State.powerOnFor]
  clockLow := nofun
  hostsAtLeastOne := by simpa using h

/-- The trace at reset is the one push of construction. -/
theorem traceGrouped_resetFor (hosts : Nat) : TraceGrouped (State.resetFor hosts) :=
  ⟨[frameBytes PixelFile.off], rfl⟩

theorem traceGrouped_powerOnFor (hosts : Nat) : TraceGrouped (State.powerOnFor hosts) := ⟨[], rfl⟩

/-- Settles O47: both states are idle and sound, with one push in the trace at reset and none at power-on. -/
theorem invariantHoldsAtReset : Obligations.InvariantHoldsAtReset := by
  unfold Obligations.InvariantHoldsAtReset
  have hall : ∀ hosts : Nat, 1 ≤ hosts →
      Inv (State.resetFor hosts) ∧ TraceGrouped (State.resetFor hosts) ∧
      Inv (State.powerOnFor hosts) ∧ TraceGrouped (State.powerOnFor hosts) := fun hosts h =>
    ⟨inv_of_soundIdle (soundIdle_resetFor h), traceGrouped_resetFor hosts, inv_of_soundIdle (soundIdle_powerOnFor h),
      traceGrouped_powerOnFor hosts⟩
  obtain ⟨hreset, hresetTrace, hpower, hpowerTrace⟩ := hall 1 le_rfl
  exact ⟨hreset, hresetTrace, hpower, hpowerTrace, hall⟩

end Sys2Proof.Proofs
end
